-- ==== Sys2Proof/Word.lean ====
section
/-! DEFINITION. The plainest data of the model: bytes of the control link, the fixed rows of like things that the
manual counts by index (eight slots, four image areas, six gear entries, seven gears), and meter time. -/

namespace Sys2Proof

/-- One byte of the control link (R176). -/
abbrev Byte := BitVec 8

/-- A slot index, 0 to 7 (00_scope section 5.4). -/
abbrev Slot := Fin 8

/-- A gear index, 0 to 7: 0 is neutral or unknown, 7 is reverse (00_scope section 5.4). -/
abbrev Gear := Fin 8

/-- An image area, 0 to 3 (chapter 10). -/
abbrev Area := Fin 4

/-- Meter time (00_scope section 5.2): whole seconds and ticks of 4 ms, 0 to 249. -/
structure MeterTime where
  seconds : Nat
  ticks : Nat
  deriving DecidableEq, Repr

/-- Eight like things, indexed 0 to 7: slots, weights, band edges, key classes. -/
structure Eight (α : Type) where
  s0 : α
  s1 : α
  s2 : α
  s3 : α
  s4 : α
  s5 : α
  s6 : α
  s7 : α
  deriving DecidableEq, Repr

/-- The entry at an index. -/
def Eight.get {α : Type} (e : Eight α) : Fin 8 → α
  | 0 => e.s0
  | 1 => e.s1
  | 2 => e.s2
  | 3 => e.s3
  | 4 => e.s4
  | 5 => e.s5
  | 6 => e.s6
  | 7 => e.s7

/-- The row whose entry at each index the function gives. -/
def Eight.ofFn {α : Type} (f : Fin 8 → α) : Eight α :=
  ⟨f 0, f 1, f 2, f 3, f 4, f 5, f 6, f 7⟩

/-- The row with one value at every index. -/
def Eight.all {α : Type} (a : α) : Eight α := ⟨a, a, a, a, a, a, a, a⟩

/-- The entries in index order. -/
def Eight.toList {α : Type} (e : Eight α) : List α :=
  [e.s0, e.s1, e.s2, e.s3, e.s4, e.s5, e.s6, e.s7]

/-- The row with the entry at one index replaced. -/
def Eight.set {α : Type} (e : Eight α) (k : Fin 8) (a : α) : Eight α :=
  Eight.ofFn fun i => if i = k then a else e.get i

/-- Entry by entry. -/
def Eight.map {α β : Type} (f : α → β) (e : Eight α) : Eight β :=
  Eight.ofFn fun k => f (e.get k)

/-- Two rows, entry by entry. -/
def Eight.zip {α β γ : Type} (f : α → β → γ) (a : Eight α) (b : Eight β) : Eight γ :=
  Eight.ofFn fun k => f (a.get k) (b.get k)

/-- The indices, in order, whose entry passes a test. -/
def Eight.indices {α : Type} (p : α → Bool) (e : Eight α) : List Slot :=
  [0, 1, 2, 3, 4, 5, 6, 7].filter fun k => p (e.get k)

/-- Six like things: the entries 1 to 6 of the gear table. -/
structure Six (α : Type) where
  e1 : α
  e2 : α
  e3 : α
  e4 : α
  e5 : α
  e6 : α
  deriving DecidableEq, Repr

/-- The entries in order. -/
def Six.toList {α : Type} (e : Six α) : List α := [e.e1, e.e2, e.e3, e.e4, e.e5, e.e6]

/-- Seven like things: one for each of the gears 1 to 7. -/
structure Seven (α : Type) where
  g1 : α
  g2 : α
  g3 : α
  g4 : α
  g5 : α
  g6 : α
  g7 : α
  deriving DecidableEq, Repr

/-- The entries in order. -/
def Seven.toList {α : Type} (e : Seven α) : List α := [e.g1, e.g2, e.g3, e.g4, e.g5, e.g6, e.g7]

/-- The row with the entry of one gear changed; gear 0 has no entry. -/
def Seven.modify {α : Type} (e : Seven α) (g : Gear) (f : α → α) : Seven α :=
  match g with
  | 0 => e
  | 1 => { e with g1 := f e.g1 }
  | 2 => { e with g2 := f e.g2 }
  | 3 => { e with g3 := f e.g3 }
  | 4 => { e with g4 := f e.g4 }
  | 5 => { e with g5 := f e.g5 }
  | 6 => { e with g6 := f e.g6 }
  | 7 => { e with g7 := f e.g7 }

/-- Four like things, indexed 0 to 3: the image areas and their usable marks. -/
structure Four (α : Type) where
  a0 : α
  a1 : α
  a2 : α
  a3 : α
  deriving DecidableEq, Repr

/-- The entry at an index. -/
def Four.get {α : Type} (e : Four α) : Fin 4 → α
  | 0 => e.a0
  | 1 => e.a1
  | 2 => e.a2
  | 3 => e.a3

/-- The row whose entry at each index the function gives. -/
def Four.ofFn {α : Type} (f : Fin 4 → α) : Four α := ⟨f 0, f 1, f 2, f 3⟩

/-- The row with one value at every index. -/
def Four.all {α : Type} (a : α) : Four α := ⟨a, a, a, a⟩

/-- The row with the entry at one index replaced. -/
def Four.set {α : Type} (e : Four α) (k : Fin 4) (a : α) : Four α :=
  Four.ofFn fun i => if i = k then a else e.get i

/-- The entries in index order. -/
def Four.toList {α : Type} (e : Four α) : List α := [e.a0, e.a1, e.a2, e.a3]

end Sys2Proof
end

