-- ==== Sys2Proof/Syntax.lean ====
section
/-! DEFINITION. The commands: one constructor of Instr for each row of spec/opcode_table.json. The part is a block: a
command is an event at one of its pins or timers, the end of one of its own spans of time, or the taking of a request
that stands at the head of the receive queue. A request's tag and arguments travel in its frame, which the link events
put into that queue, so the request commands have no operand of their own. Where the manual leaves open the order of
two reactions inside one step, the command carries that order (log 3). -/

namespace Sys2Proof

/-- The three pulse channels (section 1.1). -/
inductive Shaft where
  | eng
  | inp
  | out
  deriving DecidableEq, Repr

/-- The direction of a transition of a pulse pin (R2). -/
inductive Transition where
  | rising
  | falling
  deriving DecidableEq, Repr

/-- The four switch lines (section 1.2). -/
inductive SwitchLine where
  | ign
  | crk
  | clu
  | rvs
  deriving DecidableEq, Repr

/-- The two lamp outputs (section 5.3). -/
inductive LampId where
  | lamp1
  | lamp2
  deriving DecidableEq, Repr

/-- The events of SLEEP that may be a wake source (R14, R159): a transition of the IGN or CRK pin, with the level that the
pin goes to, or a start edge on RX. A pin's transition is a wake source when that level is the active one by the line's
polarity. An OUT edge reaches the part as a pulse edge, and the bytes of a frame by the commands of the link. -/
inductive WakeSource where
  | ignPin (high : Bool)
  | crkPin (high : Bool)
  | rxStartEdge
  deriving DecidableEq, Repr

/-- The orders that R153 leaves open inside one tally: whether the gear tracker works before the Wear Calculator
(R63), and whether the stream report is formed before the gear tracker works. -/
structure TallyOrder where
  gearFirst : Bool
  reportFirst : Bool
  deriving DecidableEq, Repr

/-- What the area of a failed commit holds (R171: "keeps whatever it now holds"): no valid image, or the image it held
before, where the write did not take. -/
inductive FailedArea where
  | noValidImage
  | imageBefore
  deriving DecidableEq, Repr

/-- The outcome with which the write and verify of a commit end (R167). -/
inductive CommitResult where
  | verified
  | failed (left : FailedArea)
  deriving DecidableEq, Repr

/-- The commands, in the order of spec/opcode_table.json. -/
inductive Instr where
  /-- POWER_ON (R160) -/
  | powerOn
  /-- POWER_LOSS (R160) -/
  | powerLoss
  /-- RESETN_LOW (R160) -/
  | resetnLow
  /-- RESETN_RISE (R160) -/
  | resetnRise
  /-- RESTORE_STEP_END (R174); the level read from the BAUDSEL pin (R176). -/
  | restoreStepEnd (baudselHigh : Bool)
  /-- SETTLE_END (R161) -/
  | settleEnd
  /-- PULSE_EDGE (R2 to R4): a transition of a pulse pin, `us` microseconds after the last tick step. `clutchFirst`:
  the clutch tracking takes the speed change event before the engine tracking. -/
  | pulseEdge (shaft : Shaft) (transition : Transition) (us : Nat) (clutchFirst : Bool)
  /-- CHANNEL_STALL (R5), `us` microseconds after the last tick step; `clutchFirst` as for an edge. -/
  | channelStall (shaft : Shaft) (us : Nat) (clutchFirst : Bool)
  /-- LINE_LEVEL_CHANGE (R12). `hireFirst`: at IGN becoming inactive, the Hire Unit takes the change before the engine
  tracking (R62). -/
  | lineLevelChange (line : SwitchLine) (hireFirst : Bool)
  /-- WAKE_SOURCE (R159) -/
  | wakeSource (source : WakeSource)
  /-- WAKE_COMPLETE (R159) -/
  | wakeComplete
  /-- METER_TICK (R152); the voltage on the VBAT pin in µV, sampled at the tick (R15). -/
  | meterTick (vbatPinMicroVolts : Nat)
  /-- TALLY (R153) -/
  | tally (order : TallyOrder)
  /-- CHECKPOINT_DUE (R170) -/
  | checkpointDue
  /-- CONFIRM_TIMER_EXPIRY (R25) -/
  | confirmTimerExpiry
  /-- LOCK_TIMER_EXPIRY (R33) -/
  | lockTimerExpiry
  /-- FRESHNESS_EXPIRY (R42) -/
  | freshnessExpiry
  /-- DOZE_TIMER_EXPIRY (R155) -/
  | dozeTimerExpiry
  /-- LAMP_CHECK_EXPIRY (R97) -/
  | lampCheckExpiry
  /-- BLINK_PHASE_BOUNDARY (R96) -/
  | blinkPhaseBoundary (lamp : LampId)
  /-- COMMIT_COMPLETE (R168) -/
  | commitComplete (result : CommitResult)
  /-- FRAME_RECEIVED (R177): bytes that arrive on RX, each with its stop bit high. -/
  | frameReceived (bytes : List Byte)
  /-- INTER_BYTE_TIMEOUT (R177): bytes that arrive, then more than 5 ms without one. -/
  | interByteTimeout (bytes : List Byte)
  /-- TRANSMIT_COMPLETE (R184) -/
  | transmitComplete
  /-- IDENTIFY (R185) -/
  | identify
  /-- READ_STATUS (R185) -/
  | readStatus
  /-- READ_SLOT (R93) -/
  | readSlot
  /-- READ_METERS (R46) -/
  | readMeters
  /-- READ_HIRE (R114) -/
  | readHire
  /-- READ_HISTORY (R129) -/
  | readHistory
  /-- READ_START_LOG (R58) -/
  | readStartLog
  /-- READ_IDLE (R117) -/
  | readIdle
  /-- OPEN_HIRE (R106) -/
  | openHire
  /-- CLOSE_HIRE (R110) -/
  | closeHire
  /-- SUSPEND_HIRE (R108) -/
  | suspendHire
  /-- RESUME_HIRE (R109) -/
  | resumeHire
  /-- RELEASE_HISTORY (R131) -/
  | releaseHistory
  /-- RELEASE_IDLE (R118) -/
  | releaseIdle
  /-- DECLARE_CONDITION (R41) -/
  | declareCondition
  /-- RECORD_SERVICE (R89) -/
  | recordService
  /-- INSTALL_UNIT (R90) -/
  | installUnit
  /-- ENTER_SETUP (R138) -/
  | enterSetup
  /-- SET_ITEM (R139) -/
  | setItem
  /-- READ_ITEM (R140) -/
  | readItem
  /-- ARM (R142) -/
  | arm
  /-- ABANDON (R145) -/
  | abandon
  /-- LOAD_DEFAULTS (R146) -/
  | loadDefaults
  /-- CLEAR_ACCOUNTING (R148) -/
  | clearAccounting
  /-- CHECKPOINT (R168) -/
  | checkpoint
  /-- SLEEP (R156) -/
  | sleep
  /-- RESTART (R163) -/
  | restart
  /-- NOTICE_MASK (R180) -/
  | noticeMask
  /-- CLEAR_FLAGS (R181) -/
  | clearFlags
  /-- STREAM (R183) -/
  | stream
  /-- UNKNOWN_REQUEST (R178) -/
  | unknownRequest
  /-- REPLY_KIND_FRAME_DROP (R178) -/
  | replyKindFrameDrop
  /-- SWITCH_LINE_SAMPLE (R11): the level of the line's pin at the sample. -/
  | switchLineSample (line : SwitchLine) (pinHigh : Bool)
  /-- FRAME_DISCARDED (R177): bytes that arrive, the last of them with its stop bit low when `stopLow`. -/
  | frameDiscarded (bytes : List Byte) (stopLow : Bool)
  deriving DecidableEq, Repr

end Sys2Proof
end

