-- ==== Sys2Proof/WellFormed.lean ====
section
/-! DEFINITION. Which commands are well formed: the ranges the manual gives their operands. The meanings are total on
every command all the same. -/

namespace Sys2Proof

/-- An instant between two tick steps, in microseconds after the earlier one: a tick lasts 4 ms (R152). -/
def withinTick (us : Nat) : Bool := us < 4000

/-- The VBAT pin input range, 0 to 1.09 V (00_scope section 6.2), in µV. -/
def withinVbatPin (microVolts : Nat) : Bool := microVolts ≤ 1090000

/-- A command whose operands lie in the ranges of the manual. A frame that is discarded for a low stop bit has the byte
that carried it. -/
def Instr.wf : Instr → Bool
  | .pulseEdge _ _ us _ => withinTick us
  | .channelStall _ us _ => withinTick us
  | .meterTick v => withinVbatPin v
  | .frameDiscarded bytes stopLow => !stopLow || !bytes.isEmpty
  | .powerOn | .powerLoss | .resetnLow | .resetnRise | .restoreStepEnd _ | .settleEnd
  | .lineLevelChange _ _ | .wakeSource _ | .wakeComplete | .tally _ | .checkpointDue
  | .confirmTimerExpiry | .lockTimerExpiry | .freshnessExpiry | .dozeTimerExpiry | .lampCheckExpiry
  | .blinkPhaseBoundary _ | .commitComplete _ | .frameReceived _ | .interByteTimeout _ | .transmitComplete
  | .identify | .readStatus | .readSlot | .readMeters | .readHire | .readHistory | .readStartLog | .readIdle
  | .openHire | .closeHire | .suspendHire | .resumeHire | .releaseHistory | .releaseIdle
  | .declareCondition | .recordService | .installUnit
  | .enterSetup | .setItem | .readItem | .arm | .abandon | .loadDefaults | .clearAccounting
  | .checkpoint | .sleep | .restart | .noticeMask | .clearFlags | .stream
  | .unknownRequest | .replyKindFrameDrop | .switchLineSample _ _ => true

end Sys2Proof
end

