-- ==== Sys2Proof/Decode.lean ====
section
/-! DEFINITION. Two decoders: the host's question about words of the opcode table, whose rows give no bits here, and the
control link's own, from a frame's KIND byte to the request it names (section 11.7.2). -/

namespace Sys2Proof

/-- The command that a word spells by the bits of spec/opcode_table.json. No row of the table gives any bits, so no
word spells a command (log 2). -/
def decodeTableWord (_nbits _w : Nat) : Option Instr := none

/-- The KIND byte of a request (section 11.7.2); the commands that are no request have none. -/
def kindOfRequest : Instr → Option Byte
  | .identify => some 0x01
  | .readStatus => some 0x02
  | .readSlot => some 0x03
  | .readMeters => some 0x04
  | .readHire => some 0x05
  | .readHistory => some 0x06
  | .readStartLog => some 0x07
  | .readIdle => some 0x08
  | .openHire => some 0x10
  | .closeHire => some 0x11
  | .suspendHire => some 0x12
  | .resumeHire => some 0x13
  | .releaseHistory => some 0x14
  | .releaseIdle => some 0x15
  | .declareCondition => some 0x18
  | .recordService => some 0x20
  | .installUnit => some 0x21
  | .enterSetup => some 0x30
  | .setItem => some 0x31
  | .readItem => some 0x32
  | .arm => some 0x33
  | .abandon => some 0x34
  | .loadDefaults => some 0x35
  | .clearAccounting => some 0x36
  | .checkpoint => some 0x40
  | .sleep => some 0x41
  | .restart => some 0x42
  | .noticeMask => some 0x48
  | .clearFlags => some 0x49
  | .stream => some 0x4A
  | .powerOn | .powerLoss | .resetnLow | .resetnRise | .restoreStepEnd _ | .settleEnd
  | .pulseEdge _ _ _ _ | .channelStall _ _ _ | .lineLevelChange _ _ | .wakeSource _ | .wakeComplete
  | .meterTick _ | .tally _ | .checkpointDue | .confirmTimerExpiry | .lockTimerExpiry | .freshnessExpiry
  | .dozeTimerExpiry | .lampCheckExpiry | .blinkPhaseBoundary _ | .commitComplete _ | .frameReceived _
  | .interByteTimeout _ | .transmitComplete | .unknownRequest | .replyKindFrameDrop | .switchLineSample _ _
  | .frameDiscarded _ _ => none

/-- The request that a KIND byte names (section 11.7.2); none for a KIND that names no request. -/
def requestOfKind (kind : Byte) : Option Instr :=
  match kind.toNat with
  | 0x01 => some .identify
  | 0x02 => some .readStatus
  | 0x03 => some .readSlot
  | 0x04 => some .readMeters
  | 0x05 => some .readHire
  | 0x06 => some .readHistory
  | 0x07 => some .readStartLog
  | 0x08 => some .readIdle
  | 0x10 => some .openHire
  | 0x11 => some .closeHire
  | 0x12 => some .suspendHire
  | 0x13 => some .resumeHire
  | 0x14 => some .releaseHistory
  | 0x15 => some .releaseIdle
  | 0x18 => some .declareCondition
  | 0x20 => some .recordService
  | 0x21 => some .installUnit
  | 0x30 => some .enterSetup
  | 0x31 => some .setItem
  | 0x32 => some .readItem
  | 0x33 => some .arm
  | 0x34 => some .abandon
  | 0x35 => some .loadDefaults
  | 0x36 => some .clearAccounting
  | 0x40 => some .checkpoint
  | 0x41 => some .sleep
  | 0x42 => some .restart
  | 0x48 => some .noticeMask
  | 0x49 => some .clearFlags
  | 0x4A => some .stream
  | _ => none

/-- KIND 0x80 and above are the replies' own kinds: such a frame is removed from the queue without a reply (R178). -/
def isReplyKind (kind : Byte) : Bool := 0x80 ≤ kind.toNat

/-- The command that takes a frame of this KIND from the head of the receive queue (R178). -/
def takerOfKind (kind : Byte) : Instr :=
  if isReplyKind kind then .replyKindFrameDrop
  else match requestOfKind kind with
    | some i => i
    | none => .unknownRequest

end Sys2Proof
end

