-- ==== Sys2Proof/Machine/Records.lean ====
section
/-! DEFINITION. The records of the manual: configuration items (section 8.3), slot meters, hires, summaries, start
attempts, images, frames and replies. Counts are whole numbers; their ranges are held by the operations (Ops). -/

namespace Sys2Proof.Machine

open Sys2Proof

/-! ## Configuration items (section 8.3) -/

/-- The laws by which a slot accrues wear (section 4.2). -/
inductive Law where
  | none
  | hour
  | slip
  | rev
  | start
  | shift
  deriving DecidableEq, Repr

/-- A set of the four severity conditions: the active set (R43) or a slot's severity map (section 4.3). -/
structure Conditions where
  cold : Bool
  hot : Bool
  load : Bool
  lowBattery : Bool
  deriving DecidableEq, Repr

/-- SLOT k. -/
structure SlotSettings where
  law : Law
  weights : Eight Nat
  map : Conditions
  advisory : Nat
  limit : Nat
  deriving DecidableEq, Repr

/-- A present entry of GEARS. -/
structure GearEntry where
  nominal : Nat
  tolerance : Nat
  deriving DecidableEq, Repr

/-- ENGINE. -/
structure EngineSettings where
  runSpeed : Nat
  stallSpeed : Nat
  confirmMs : Nat
  deriving DecidableEq, Repr

/-- CLUTCH. -/
structure ClutchSettings where
  tolerance : Nat
  lockMs : Nat
  deriving DecidableEq, Repr

/-- SHIFT. -/
structure ShiftSettings where
  confirmMs : Nat
  oMinimum : Nat
  deriving DecidableEq, Repr

/-- The active-edge setting of a channel (R2). -/
inductive ActiveEdge where
  | rising
  | falling
  | both
  deriving DecidableEq, Repr

/-- CHANNEL c. -/
structure ChannelSettings where
  ppr : Nat
  edge : ActiveEdge
  minInterval : Nat
  stallMs : Nat
  deriving DecidableEq, Repr

/-- The polarity of a switch line or a lamp. -/
inductive Polarity where
  | activeHigh
  | activeLow
  deriving DecidableEq, Repr

/-- LINE l. -/
structure LineSettings where
  polarity : Polarity
  debounceMs : Nat
  deriving DecidableEq, Repr

/-- CONDITIONS. -/
structure ConditionSettings where
  coldLimit : Int
  hotLimit : Int
  lowBatteryLimit : Nat
  levelCold : Nat
  levelHot : Nat
  levelLoad : Nat
  levelLowBattery : Nat
  deriving DecidableEq, Repr

/-- LAMP m. -/
structure LampSettings where
  map : Eight Bool
  period : Nat
  duty : Nat
  polarity : Polarity
  deriving DecidableEq, Repr

/-- The classes a hire is opened with. -/
inductive HireClass where
  | customer
  | staff
  | workshop
  deriving DecidableEq, Repr

/-- KEY_CLASS i. -/
structure KeyClass where
  enabled : Bool
  base : Nat
  prefixLength : Nat
  alternate : Option Nat
  cls : HireClass
  deriving DecidableEq, Repr

/-- HIRE_POLICY. -/
structure HirePolicy where
  forced : Option HireClass
  closeCustomer : Bool
  closeStaff : Bool
  closeWorkshop : Bool
  deriving DecidableEq, Repr

/-- TIMING. -/
structure Timing where
  checkpointS : Nat
  dozeS : Nat
  wakeOnShaft : Bool
  deriving DecidableEq, Repr

/-- One configuration set: a value for every field of every item (R136, section 8.3). -/
structure Settings where
  slots : Eight SlotSettings
  bands : Eight Nat
  gears : Six (Option GearEntry)
  engine : EngineSettings
  clutch : ClutchSettings
  shift : ShiftSettings
  chEng : ChannelSettings
  chInp : ChannelSettings
  chOut : ChannelSettings
  ign : LineSettings
  crk : LineSettings
  clu : LineSettings
  rvs : LineSettings
  conditions : ConditionSettings
  lamp1 : LampSettings
  lamp2 : LampSettings
  keys : Eight KeyClass
  policy : HirePolicy
  timing : Timing
  deriving DecidableEq, Repr

/-- The 33 items by name; the identifiers of section 8.3 number them. -/
inductive ItemId where
  | slot (k : Slot)
  | bands
  | gears
  | engine
  | clutch
  | shift
  | channel (c : Shaft)
  | line (l : SwitchLine)
  | conditions
  | lamp (m : LampId)
  | keyClass (k : Fin 8)
  | policy
  | timing
  deriving DecidableEq, Repr

/-- An item with its values, as SET_ITEM stores it. -/
inductive ItemValue where
  | slot (k : Slot) (v : SlotSettings)
  | bands (v : Eight Nat)
  | gears (v : Six (Option GearEntry))
  | engine (v : EngineSettings)
  | clutch (v : ClutchSettings)
  | shift (v : ShiftSettings)
  | channel (c : Shaft) (v : ChannelSettings)
  | line (l : SwitchLine) (v : LineSettings)
  | conditions (v : ConditionSettings)
  | lamp (m : LampId) (v : LampSettings)
  | keyClass (k : Fin 8) (v : KeyClass)
  | policy (v : HirePolicy)
  | timing (v : Timing)
  deriving DecidableEq, Repr

/-! ## Inputs -/

/-- The states of a pulse channel (section 1.1.2). -/
inductive ChannelState where
  | stalled
  | starting
  | turning
  deriving DecidableEq, Repr

/-- What a pulse channel holds. `lastEdge` is a capture time, in µs of the capture timer. -/
structure Channel where
  st : ChannelState
  lastEdge : Option Nat
  period : Option Nat
  speed : Nat
  deriving DecidableEq, Repr

/-- What a switch line holds. `level`: the debounced level, true for active. `count`: consecutive samples that have
disagreed with it. `changeDue`: a sample has brought the count to the debounce time and the change of level is to be
taken. `sample`: the last corrected sample since the end of the restore step. `pinHigh`: the pin as last seen. -/
structure Line where
  level : Bool
  count : Nat
  changeDue : Bool
  sample : Option Bool
  pinHigh : Bool
  deriving DecidableEq, Repr

/-- The supply state (R16). -/
inductive Supply where
  | normal
  | warning
  deriving DecidableEq, Repr

/-! ## Drivetrain -/

/-- The engine states (section 2.1). -/
inductive Engine where
  | off
  | ready
  | cranking
  | confirming
  | running
  | runDown
  deriving DecidableEq, Repr

/-- The clutch states (section 2.2). -/
inductive Clutch where
  | idle
  | opened
  | slipping
  | locked
  deriving DecidableEq, Repr

/-- The declared load state (section 2.4). -/
inductive LoadState where
  | unladen
  | laden
  | towing
  deriving DecidableEq, Repr

/-- The plain meters (section 2.5). -/
structure PlainMeters where
  runTallies : Nat
  ignitionTallies : Nat
  stalls : Nat
  clutchEngagements : Nat
  lockLosses : Nat
  gearEngagements : Seven Nat
  outputRevolutions : Nat
  deriving DecidableEq, Repr

/-! ## Start attempts (chapter 3) -/

/-- The kinds of an open attempt. -/
inductive AttemptKind where
  | crank
  | push
  | reEngage
  deriving DecidableEq, Repr

/-- The classes of a closed attempt. -/
inductive AttemptClass where
  | coldOk
  | warmOk
  | failed
  | reEngage
  | push
  deriving DecidableEq, Repr

/-- A count for each attempt class. -/
structure StartCounts where
  coldOk : Nat
  warmOk : Nat
  failed : Nat
  reEngage : Nat
  push : Nat
  deriving DecidableEq, Repr

/-- The open attempt record. -/
structure Attempt where
  openTime : MeterTime
  kind : AttemptKind
  cold : Bool
  hot : Bool
  load : Bool
  coolant : Option Int
  hire : Option Nat
  crankRunning : Bool
  crankTicks : Nat
  batteryMin : Option Nat
  deriving DecidableEq, Repr

/-- A start log entry (R56). -/
structure StartEntry where
  number : Nat
  openTime : MeterTime
  cls : AttemptClass
  tenths : Nat
  batteryMin : Option Nat
  coolant : Option Int
  hire : Option Nat
  deriving DecidableEq, Repr

/-! ## Slots and lamps (chapter 5) -/

/-- The meters and marks of a slot (R84). -/
structure SlotMeters where
  total : Nat
  unitTotal : Nat
  sinceService : Nat
  residue : Nat
  advisory : Bool
  due : Bool
  frozen : Bool
  services : Nat
  lastService : Option MeterTime
  installed : Option MeterTime
  deriving DecidableEq, Repr

/-- The lamp modes (section 5.3). -/
inductive LampMode where
  | dark
  | blink
  | steady
  | check
  deriving DecidableEq, Repr

/-- What a lamp holds. `lit` is what the pin shows; the blink phase counts ticks. -/
structure Lamp where
  mode : LampMode
  phase : Nat
  lit : Bool
  deriving DecidableEq, Repr

/-! ## Hires and history (chapters 6 and 7) -/

/-- The ten counters of a hire. -/
structure HireCounters where
  runTallies : Nat
  starts : StartCounts
  stalls : Nat
  clutchEngagements : Nat
  gearEngagements : Nat
  outputRevolutions : Nat
  deriving DecidableEq, Repr

/-- The open hire record. -/
structure HireRecord where
  number : Nat
  keyId : Nat
  cls : HireClass
  generation : Nat
  openTime : MeterTime
  suspended : Bool
  main : Eight Nat
  recovery : Option (Eight Nat)
  counters : HireCounters
  deriving DecidableEq, Repr

/-- The class of a summary: that of a hire, or MIXED after a merge of different classes. -/
inductive SummaryClass where
  | one (c : HireClass)
  | mixed
  deriving DecidableEq, Repr

/-- The causes of a close. -/
inductive CloseCause where
  | hostClose
  | superseded
  | ignitionOff
  deriving DecidableEq, Repr

/-- A summary of the history (section 7.1). -/
structure Summary where
  first : Nat
  last : Nat
  keyId : Nat
  cls : SummaryClass
  generation : Nat
  openTime : MeterTime
  closeTime : MeterTime
  cause : CloseCause
  merged : Nat
  main : Eight Nat
  recovery : Option (Eight Nat)
  counters : HireCounters
  deriving DecidableEq, Repr

/-! ## Retention (chapter 10) -/

/-- The fields of an image before its check word: the retained state as it stood at one snapshot (R164). -/
structure ImageFields where
  sequence : Nat
  time : MeterTime
  armed : Settings
  generation : Nat
  slots : Eight SlotMeters
  idle : Eight Nat
  settled : Eight Nat
  openHire : Option HireRecord
  history : List Summary
  released : Nat
  nextHire : Nat
  nextAttempt : Nat
  startLog : List StartEntry
  lifeStarts : StartCounts
  meters : PlainMeters
  outPending : Nat
  faultSeen : Bool
  deriving DecidableEq, Repr

/-- An image (R164): its fields, and the check word that stands behind them. -/
structure Image extends ImageFields where
  check : Nat
  deriving DecidableEq, Repr

/-- What the read of an image area gives: nothing complete, where it was never written or was cut short, or an image,
whose check word says whether it is damaged (R164). -/
inductive AreaContents where
  | unreadable
  | image (i : Image)
  deriving DecidableEq, Repr

/-- A commit in flight: the area and image it writes, and whether it started at or after the setting of the
transmission hold (R162). -/
structure Flight where
  area : Area
  image : Image
  afterHold : Bool
  deriving DecidableEq, Repr

/-- The commit state (R166). -/
inductive Commit where
  | idle
  | inFlight (f : Flight)
  | inFlightPending (f : Flight)
  deriving DecidableEq, Repr

/-- The commit a deferred reply or a sleep pending waits for: the one in flight, or the one that follows it (R169). -/
inductive Bound where
  | current
  | next
  deriving DecidableEq, Repr

/-- The restore outcome (R161). -/
inductive RestoreOutcome where
  | image
  | imageAfterFault
  | blank
  deriving DecidableEq, Repr

/-! ## Power (chapter 9) -/

/-- The power state. RUN, DOZE and SLEEP are the manual's; the other four say where the part stands outside them:
without supply, held by a low RESETn, in the restore step, in the settle step (R160, section 9.5). -/
inductive Power where
  | unpowered
  | held
  | restore
  | settle
  | run
  | doze
  | sleep
  deriving DecidableEq, Repr

/-- The origin of a sleep pending. -/
inductive SleepOrigin where
  | dozeExpiry
  | request
  deriving DecidableEq, Repr

/-- How far a sleep pending has come (R157): waiting for its commit, waiting for the SLEEP reply to leave TX, ready. -/
inductive SleepStage where
  | commit (b : Bound)
  | reply
  | ready
  deriving DecidableEq, Repr

/-- A sleep pending. `timerHeld`: a doze expiry has found or set it, and the doze timer does not run while it is pending.
`justSet`: a doze expiry at the present instant has set it (R155). -/
structure SleepPending where
  origin : SleepOrigin
  stage : SleepStage
  timerHeld : Bool
  justSet : Bool
  deriving DecidableEq, Repr

/-! ## Control link (chapter 11) -/

/-- What the receiver has gathered and not yet disposed of (R177): a byte with its stop bit high, a byte with it low,
or a gap of more than 5 ms. -/
inductive RxItem where
  | byte (b : Byte)
  | badStop (b : Byte)
  | gap
  deriving DecidableEq, Repr

/-- A frame without its SYNC, LEN and CRC (R176). -/
structure Frame where
  kind : Byte
  tag : Byte
  payload : List Byte
  deriving DecidableEq, Repr

/-- The outcomes of a reply (R179). -/
inductive ReplyCode where
  | done
  | doneNotRetained
  | refusedLength
  | refusedUnknown
  | refusedRange
  | refusedSetupActive
  | refusedNotInSetup
  | refusedHireOpen
  | refusedNoHire
  | refusedInvalidConfig
  | refusedIgnition
  | refusedEngine
  deriving DecidableEq, Repr

/-- A field of a payload, by its encoding (section 11.7.1). `num` is an unsigned value of a given width in bytes;
`hireNo` is judged against the secured mark when its frame begins transmission (R104). -/
inductive Field where
  | num (width value : Nat)
  | temp (t : Int)
  | time (t : MeterTime)
  | opt (width : Nat) (v : Option Nat)
  | optTemp (t : Option Int)
  | optTime (t : Option MeterTime)
  | hireNo (n : Option Nat)
  deriving DecidableEq, Repr

/-- What the part does when the last byte of a reply has left TX, beyond freeing the line: nothing; make its sleep
pending ready (`sleepLive`, or no longer because the sleep was cancelled or another SLEEP has taken its place);
start up (R163). -/
inductive AfterReply where
  | nothing
  | sleepLive
  | sleepReplaced
  | sleepCancelled
  | startUp
  deriving DecidableEq, Repr

/-- A reply that is ready: its transmission waits for the line alone. `readyAt` is the instant at which it became ready,
as the count of the capture timers, and `order` the place of its request in the order of taking: the arbiter picks by
these two (R184, log 43). -/
structure Reply where
  kind : Byte
  tag : Byte
  code : ReplyCode
  takenAt : MeterTime
  fields : List Field
  after : AfterReply
  readyAt : Nat
  order : Nat
  deriving DecidableEq, Repr

/-- How the fields of a deferred reply are formed: from values kept at the taking, or at the release from the commit
(CHECKPOINT) or from the sleep pending (SLEEP). -/
inductive DeferredForm where
  | kept (fields : List Field)
  | checkpoint
  | sleepOutcome
  deriving DecidableEq, Repr

/-- A deferred reply, the commit it is bound to (R169) and the place of its request in the order of taking (R184,
log 43). -/
structure Deferred where
  kind : Byte
  tag : Byte
  takenAt : MeterTime
  form : DeferredForm
  after : AfterReply
  bound : Bound
  order : Nat
  deriving DecidableEq, Repr

/-- The 13 notice flags (section 11.3). -/
inductive Flag where
  | startLogged
  | slotAdvisory
  | slotDue
  | slotFrozen
  | hireAutoClosed
  | historyNearFull
  | historyMerged
  | conditionStale
  | supplyWarning
  | retentionFault
  | restored
  | linkOverrun
  | streamEnded
  deriving DecidableEq, Repr

/-- The detail of a set flag: none, a slot, area or outcome index, or a hire number. -/
inductive Detail where
  | none
  | index (k : Nat)
  | hire (n : Option Nat)
  deriving DecidableEq, Repr

/-- What a raise stores. -/
structure Raised where
  detail : Detail
  time : MeterTime
  deriving DecidableEq, Repr

/-- A flag: set with what its raise stored, or clear; its bit of the enable mask; its notice in the pending set. -/
structure FlagState where
  set : Option Raised
  enabled : Bool
  notice : Bool
  deriving DecidableEq, Repr

/-- The 13 flags. -/
structure FlagTable where
  startLogged : FlagState
  slotAdvisory : FlagState
  slotDue : FlagState
  slotFrozen : FlagState
  hireAutoClosed : FlagState
  historyNearFull : FlagState
  historyMerged : FlagState
  conditionStale : FlagState
  supplyWarning : FlagState
  retentionFault : FlagState
  restored : FlagState
  linkOverrun : FlagState
  streamEnded : FlagState
  deriving DecidableEq, Repr

/-- A running stream (R183). `left`: reports still to form, none for UNENDING. -/
structure Stream where
  period : Nat
  left : Option Nat
  tallies : Nat
  deriving DecidableEq, Repr

/-- What a frame in transmission carries: a reply (which holds its reply buffer entry), a notice, or the report. -/
inductive TxSource where
  | reply (after : AfterReply)
  | notice (f : Flag)
  | report
  deriving DecidableEq, Repr

/-- The frame in transmission. -/
structure Tx where
  source : TxSource
  frame : Frame
  deriving DecidableEq, Repr

end Sys2Proof.Machine
end

