-- ==== Sys2Proof/Config.lean ====
section
/-! DEFINITION. What the part fixes in manufacture and the free values: constants without a body, so that no proof
can know their value. A statement that holds of the model holds whatever they are. -/

namespace Sys2Proof

/-- FREE VALUE (log 4). The part's 64-bit serial number, "fixed in manufacture" (R185). -/
opaque Config.serialNumber : BitVec 64

/-- FREE VALUE (log 5). R15 gives each VBAT sample as the pin voltage times 30 "expressed in whole mV" and does not
say how a product that is no whole number of mV is rounded: true takes the whole number above, false the one below.
The argument is the pin voltage in µV. -/
opaque Config.vbatRoundsUp : Nat → Bool

/-- FREE VALUE (log 6). When one event sets the same mark on several slots, the manual does not order the slots'
raises of the one flag, and the first of them gives the flag its detail (R86, R180). This picks among the candidates;
the argument is the model's own count of such picks. -/
opaque Config.freePick : Nat → Nat

/-- FREE VALUE (log 7). R164 gives the fields of an image and the check computed "over every byte of the image before
it", and no byte layout: these are the bytes of an image before its check word. -/
opaque Config.imageBytes : Machine.ImageFields → List Byte

end Sys2Proof
end

