-- ==== Sys2Proof/Machine/Factory.lean ====
section
/-! DEFINITION. The factory set (R141, section 4.6, section 1.1 and 1.2), and the blank values of the retained records
(R175). -/

namespace Sys2Proof.Machine

open Sys2Proof

/-- No condition. -/
def noConditions : Conditions := ⟨false, false, false, false⟩

/-- The factory SLOT items (section 4.6 and R141). The weights of the NONE slots 6 and 7, for which section 4.6 gives a
dash, are 0: DESIGN CHOICE (log 24). -/
def factorySlots : Eight SlotSettings where
  s0 := ⟨.start, ⟨512, 256, 384, 2048, 0, 0, 0, 0⟩, ⟨false, false, false, true⟩, 0, 0⟩
  s1 := ⟨.hour, ⟨16, 24, 32, 40, 56, 80, 120, 200⟩, ⟨true, true, true, false⟩, 25000000, 450⟩
  s2 := ⟨.slip, ⟨64, 256, 384, 512, 640, 768, 896, 256⟩, ⟨false, false, true, false⟩, 4000000, 80⟩
  s3 := ⟨.shift, ⟨0, 512, 512, 512, 512, 512, 512, 768⟩, noConditions, 0, 0⟩
  s4 := ⟨.rev, ⟨16, 64, 48, 32, 24, 20, 16, 64⟩, ⟨false, false, true, false⟩, 0, 0⟩
  s5 := ⟨.start, ⟨0, 0, 0, 0, 4096, 0, 0, 0⟩, noConditions, 0, 0⟩
  s6 := ⟨.none, Eight.all 0, noConditions, 0, 0⟩
  s7 := ⟨.none, Eight.all 0, noConditions, 0, 0⟩

/-- The factory KEY_CLASS item (section 6.2.3). -/
def factoryKeyClass : KeyClass := ⟨false, 0, 0, none, .customer⟩

/-- The factory set: every default of R141. -/
def factorySettings : Settings where
  slots := factorySlots
  bands := ⟨0, 700, 1100, 1500, 1900, 2300, 2700, 3100⟩
  gears := ⟨some ⟨6150, 120⟩, some ⟨3560, 120⟩, some ⟨2220, 120⟩, some ⟨1380, 120⟩, some ⟨1000, 120⟩, some ⟨780, 120⟩⟩
  engine := ⟨500, 250, 1000⟩
  clutch := ⟨40, 300⟩
  shift := ⟨500, 30⟩
  chEng := ⟨1, .rising, 100, 200⟩
  chInp := ⟨1, .rising, 100, 200⟩
  chOut := ⟨1, .rising, 100, 1000⟩
  ign := ⟨.activeHigh, 50⟩
  crk := ⟨.activeHigh, 20⟩
  clu := ⟨.activeHigh, 20⟩
  rvs := ⟨.activeHigh, 20⟩
  conditions := ⟨20, 105, 11000, 1, 2, 1, 1⟩
  lamp1 := ⟨Eight.all true, 50, 25, .activeHigh⟩
  lamp2 := ⟨Eight.all false, 50, 25, .activeHigh⟩
  keys := Eight.all factoryKeyClass
  policy := ⟨none, false, true, false⟩
  timing := ⟨60, 300, true⟩

/-- A channel at the end of the restore step (R17). -/
def channelAtRest : Channel := ⟨.stalled, none, none, 0⟩

/-- A switch line at the end of the restore step: its level reads inactive (R18). The pin has not been
seen and counts as low: DESIGN CHOICE (log 21). -/
def lineAtRest : Line := ⟨false, 0, false, none, false⟩

/-- Every plain meter 0 (R46). -/
def zeroMeters : PlainMeters := ⟨0, 0, 0, 0, 0, ⟨0, 0, 0, 0, 0, 0, 0⟩, 0⟩

/-- No attempt of any class counted. -/
def zeroStarts : StartCounts := ⟨0, 0, 0, 0, 0⟩

/-- The counters with which a hire opens (R102). -/
def zeroCounters : HireCounters := ⟨0, zeroStarts, 0, 0, 0, 0⟩

/-- Eight accounts of 0 WU. -/
def zeroAccounts : Eight Nat := Eight.all 0

/-- A slot's blank meters (R85). -/
def blankSlot : SlotMeters := ⟨0, 0, 0, 0, false, false, false, 0, none, none⟩

/-- A dark lamp. -/
def lampDark : Lamp := ⟨.dark, 0, false⟩

/-- A flag as every start-up leaves it: clear, enabled, no notice (R180). -/
def clearEnabledFlag : FlagState := ⟨none, true, false⟩

/-- The 13 flags as every start-up leaves them (R180). -/
def startUpFlags : FlagTable :=
  ⟨clearEnabledFlag, clearEnabledFlag, clearEnabledFlag, clearEnabledFlag, clearEnabledFlag, clearEnabledFlag,
    clearEnabledFlag, clearEnabledFlag, clearEnabledFlag, clearEnabledFlag, clearEnabledFlag, clearEnabledFlag,
    clearEnabledFlag⟩

end Sys2Proof.Machine
end

