-- ==== Sys2Proof/Machine/State.lean ====
section
/-! DEFINITION. The state of the part, block by block as section 3.1 of the opening file names the owners, with the
queue of waiting commands; the reasons a step could stop; and the state right after reset. -/

namespace Sys2Proof.Machine

open Sys2Proof

/-- Input Conditioner (chapter 1). `captureUs` is the capture timer in µs (R1); `tickUs` the µs of it since the last
tick step. -/
structure Inputs where
  eng : Channel
  inp : Channel
  out : Channel
  outRemainder : Nat
  outPending : Nat
  captureUs : Nat
  tickUs : Nat
  ign : Line
  crk : Line
  clu : Line
  rvs : Line
  vbat : Nat
  supply : Supply
  deriving DecidableEq, Repr

/-- Duty Monitor (chapter 2). The confirm and lock timers hold the ticks since their start (R24, R33); the freshness
timer the ticks left (R42). -/
structure Duty where
  engine : Engine
  confirmTimer : Option Nat
  clutch : Clutch
  lockTimer : Option Nat
  heldGear : Gear
  runCount : Nat
  gear : Gear
  coolant : Option Int
  fresh : Bool
  freshTimer : Nat
  load : LoadState
  meters : PlainMeters
  deriving DecidableEq, Repr

/-- Start Recorder (chapter 3). `next` is the next attempt number, 4,294,967,296 standing for EXHAUSTED. -/
structure Starts where
  attempt : Option Attempt
  life : StartCounts
  log : List StartEntry
  next : Nat
  deriving DecidableEq, Repr

/-- Component Table (chapter 5). -/
structure Table where
  slots : Eight SlotMeters
  lamp1 : Lamp
  lamp2 : Lamp
  deriving DecidableEq, Repr

/-- Hire Unit (chapters 6 and 7). `next` and `secured` are the next hire number and the secured mark, 4,294,967,296
standing for EXHAUSTED (section 6.1). -/
structure Hires where
  current : Option HireRecord
  idle : Eight Nat
  settled : Eight Nat
  history : List Summary
  released : Nat
  next : Nat
  secured : Nat
  deriving DecidableEq, Repr

/-- Configuration Manager (chapter 8). The mode is SETUP exactly while the staging set is present (R136). -/
structure Configuration where
  armed : Settings
  staging : Option Settings
  generation : Nat
  deriving DecidableEq, Repr

/-- Meter Clock and Power Control (chapter 9), with the pins that stop and start the part. `tallyDue`: the tally phase
has returned to 0 while awake and the tally is to be taken (R153). `secondStep`: the seconds count has stepped while
awake and the checkpoint comparison is to be made (R170). `dozeDue`: the doze timer has reached 0 and its expiry is to
be taken (R155). `waking`: a wake source has been taken and the wake is to complete (R159). `outcome`: what RESTORED
reports at the end of start-up (R161). -/
structure Clock where
  supplyOn : Bool
  resetnHigh : Bool
  power : Power
  time : MeterTime
  phase : Nat
  tallyDue : Bool
  secondStep : Bool
  doze : Option Nat
  dozeDue : Bool
  sleep : Option SleepPending
  hold : Bool
  lampCheck : Option Nat
  waking : Bool
  outcome : RestoreOutcome
  deriving DecidableEq, Repr

/-- Retention Store (chapter 10). -/
structure Store where
  areas : Four AreaContents
  usable : Four Bool
  lastArea : Option Area
  lastSequence : Nat
  lastStart : Option MeterTime
  commit : Commit
  faultSeen : Bool
  deriving DecidableEq, Repr

/-- Control Link (chapter 11). The reply buffer's entries are `deferred` (waiting for a commit), `ready` (waiting for the
line) and the reply in transmission. `taken` counts the requests taken since start-up, the model's own number for the
order of taking that R184 asks for (log 43). -/
structure Link where
  baudselHigh : Bool
  rx : List RxItem
  queue : List Frame
  deferred : List Deferred
  ready : List Reply
  taken : Nat
  restartTaken : Bool
  flags : FlagTable
  stream : Option Stream
  report : Option (List Field)
  tx : Option Tx
  deriving DecidableEq, Repr

/-- The whole machine: the ten blocks' state (the Wear Calculator holds none), the model's count of free picks (log 6)
and the waiting commands, first in first out. -/
structure State where
  inputs : Inputs
  duty : Duty
  starts : Starts
  table : Table
  hires : Hires
  config : Configuration
  clock : Clock
  store : Store
  link : Link
  freePicks : Nat
  pending : List Instr
  deriving DecidableEq, Repr

/-- The reasons the machine stops. There is none: the manual gives every command an effect in every state, or none at
all, and every event after which the part stops (a loss of power, a low RESETn) is a state of its own. -/
inductive Fault where
  deriving DecidableEq, Repr

/-- The reasons a step has no meaning. -/
inductive Refusal where
  /-- Raised by an arm of exec whose command has no meaning yet; no arm is left so. Safe: nothing is claimed of it. -/
  | notModelled (mnemonic : String)
  deriving DecidableEq, Repr

/-- The machine right after reset: a part from its reel (R175: no area holds an image) at the first instant of the
restore step, after power-on or the rise of RESETn (R160). What the manual does not fix before the end of the restore
step stands at the value a blank start gives it (log 8). -/
def State.reset : State where
  inputs :=
    { eng := channelAtRest, inp := channelAtRest, out := channelAtRest, outRemainder := 0, outPending := 0,
      captureUs := 0, tickUs := 0, ign := lineAtRest, crk := lineAtRest, clu := lineAtRest, rvs := lineAtRest,
      vbat := 0, supply := .normal }
  duty :=
    { engine := .off, confirmTimer := none, clutch := .idle, lockTimer := none, heldGear := 0, runCount := 0,
      gear := 0, coolant := none, fresh := false, freshTimer := 0, load := .unladen, meters := zeroMeters }
  starts := { attempt := none, life := zeroStarts, log := [], next := 1 }
  table := { slots := Eight.all blankSlot, lamp1 := lampDark, lamp2 := lampDark }
  hires :=
    { current := none, idle := zeroAccounts, settled := zeroAccounts, history := [], released := 0, next := 1,
      secured := 1 }
  config := { armed := factorySettings, staging := none, generation := 0 }
  clock :=
    { supplyOn := true, resetnHigh := true, power := .restore, time := ⟨0, 0⟩, phase := 0, tallyDue := false,
      secondStep := false, doze := none, dozeDue := false, sleep := none, hold := false, lampCheck := none,
      waking := false, outcome := .blank }
  store :=
    { areas := Four.all .unreadable, usable := Four.all true, lastArea := none, lastSequence := 0,
      lastStart := none, commit := .idle, faultSeen := false }
  link :=
    { baudselHigh := false, rx := [], queue := [], deferred := [], ready := [], taken := 0, restartTaken := false,
      flags := startUpFlags, stream := none, report := none, tx := none }
  freePicks := 0
  pending := []

end Sys2Proof.Machine
end

