-- ==== Sys2Proof/Machine/Ops.lean ====
section
/-! DEFINITION. The plainest operations over State: saturating counts, meter time, readings that several blocks make,
the numbering of hires, and byte order. -/

namespace Sys2Proof.Machine

open Sys2Proof

/-- The top of every 32-bit count. -/
def top32 : Nat := 4294967295

/-- Where a hire or attempt number stands that is EXHAUSTED: one above the largest number (section 6.1). -/
def exhausted : Nat := 4294967296

/-- A 32-bit count that stops at its top, the excess lost (R46, R54, R78, R102). -/
def satAdd (a b : Nat) : Nat := min (a + b) top32

/-- Division rounded up. -/
def ceilDiv (a b : Nat) : Nat := (a + b - 1) / b

/-- A value moved to the nearest end of a range (R139). -/
def clamp (lo hi n : Nat) : Nat := max lo (min hi n)

/-- A signed value moved to the nearest end of a range (R41, R139). -/
def clampInt (lo hi n : Int) : Int := max lo (min hi n)

/-- The next hire or attempt number; EXHAUSTED stays (R55, R103). -/
def nextNumber (n : Nat) : Nat := min (n + 1) exhausted

/-! ## Meter time (R152) -/

/-- Meter time stands at its top value and no longer changes. -/
def timeAtTop (t : MeterTime) : Bool := t.seconds == top32 && t.ticks == 249

/-- One tick step of meter time (R152). -/
def tickTime (t : MeterTime) : MeterTime :=
  if timeAtTop t then t
  else if t.ticks ≥ 249 then ⟨t.seconds + 1, 0⟩
  else ⟨t.seconds, t.ticks + 1⟩

/-! ## Power (sections 9.1 to 9.5) -/

/-- RUN or DOZE. -/
def State.awake (s : State) : Bool := s.clock.power == .run || s.clock.power == .doze

/-- From the end of the restore step on, SLEEP included: meter time and the capture timer of OUT run (R1, R152). -/
def State.ticking (s : State) : Bool := s.awake || s.clock.power == .settle || s.clock.power == .sleep

/-- Awake, or in the settle step: channels take edges, lines and VBAT are sampled, frames are received
(R17, R18, R177). -/
def State.sensing (s : State) : Bool := s.awake || s.clock.power == .settle

/-- The sleep conditions (R156). -/
def State.sleepConditions (s : State) : Bool :=
  !s.inputs.ign.level && s.duty.engine == .off && !s.inputs.crk.level && s.inputs.out.st == .stalled

/-! ## Readings -/

/-- The engine turns under power in CONFIRMING, RUNNING and RUN_DOWN (section 2.1). -/
def Engine.turning : Engine → Bool
  | .confirming | .running | .runDown => true
  | .off | .ready | .cranking => false

/-- The slip |E − I| (section 2.2). -/
def State.slip (s : State) : Nat :=
  (s.inputs.eng.speed - s.inputs.inp.speed) + (s.inputs.inp.speed - s.inputs.eng.speed)

/-- The active severity conditions (R43). -/
def State.conditions (s : State) : Conditions where
  cold := match s.duty.coolant with
    | some t => s.duty.fresh && decide (t < s.config.armed.conditions.coldLimit)
    | none => false
  hot := match s.duty.coolant with
    | some t => s.duty.fresh && decide (t > s.config.armed.conditions.hotLimit)
    | none => false
  load := s.duty.load != .unladen
  lowBattery := decide (s.inputs.vbat < s.config.armed.conditions.lowBatteryLimit)

/-- The mode is SETUP while the staging set is present (R136). -/
def State.inSetup (s : State) : Bool := s.config.staging.isSome

/-- The number of the open hire. -/
def State.hireNumber (s : State) : Option Nat := s.hires.current.map (·.number)

/-- Whether the checkpoint period has passed since the last commit start, or none has started (R170, R159). -/
def State.checkpointPassed (s : State) : Bool :=
  match s.store.lastStart with
  | none => true
  | some t => decide (s.clock.time.seconds - t.seconds ≥ s.config.armed.timing.checkpointS)

/-- Changes a counter of the open hire, when there is one (R102). -/
def State.count (s : State) (f : HireCounters → HireCounters) : State :=
  { s with hires.current := s.hires.current.map fun h => { h with counters := f h.counters } }

/-- One more attempt of a class, stopping at the top (R54, R102). -/
def StartCounts.bump (c : StartCounts) : AttemptClass → StartCounts
  | .coldOk => { c with coldOk := satAdd c.coldOk 1 }
  | .warmOk => { c with warmOk := satAdd c.warmOk 1 }
  | .failed => { c with failed := satAdd c.failed 1 }
  | .reEngage => { c with reEngage := satAdd c.reEngage 1 }
  | .push => { c with push := satAdd c.push 1 }

/-! ## Lines and channels by name -/

/-- A switch line's state. -/
def Inputs.line (i : Inputs) : SwitchLine → Line
  | .ign => i.ign
  | .crk => i.crk
  | .clu => i.clu
  | .rvs => i.rvs

/-- A switch line's state replaced. -/
def Inputs.setLine (i : Inputs) (l : SwitchLine) (v : Line) : Inputs :=
  match l with
  | .ign => { i with ign := v }
  | .crk => { i with crk := v }
  | .clu => { i with clu := v }
  | .rvs => { i with rvs := v }

/-- A line's settings. -/
def Settings.line (c : Settings) : SwitchLine → LineSettings
  | .ign => c.ign
  | .crk => c.crk
  | .clu => c.clu
  | .rvs => c.rvs

/-- A pulse channel's state. -/
def Inputs.channel (i : Inputs) : Shaft → Channel
  | .eng => i.eng
  | .inp => i.inp
  | .out => i.out

/-- A pulse channel's state replaced. -/
def Inputs.setChannel (i : Inputs) (c : Shaft) (v : Channel) : Inputs :=
  match c with
  | .eng => { i with eng := v }
  | .inp => { i with inp := v }
  | .out => { i with out := v }

/-- A channel's settings. -/
def Settings.channel (c : Settings) : Shaft → ChannelSettings
  | .eng => c.chEng
  | .inp => c.chInp
  | .out => c.chOut

/-- A pin level corrected for the line's polarity (R11): true for active. -/
def corrected (p : Polarity) (pinHigh : Bool) : Bool :=
  match p with
  | .activeHigh => pinHigh
  | .activeLow => !pinHigh

/-! ## Byte order and the check (R176, R164) -/

/-- A value in a number of bytes, most significant byte first. -/
def bytesOf : Nat → Nat → List Byte
  | 0, _ => []
  | w + 1, n => BitVec.ofNat 8 (n / 256 ^ w) :: bytesOf w n

/-- The value of bytes, most significant byte first. -/
def valueOf (bs : List Byte) : Nat := bs.foldl (fun n b => n * 256 + b.toNat) 0

/-- A 16-bit two's complement value (section 11.7.1). -/
def signed16 (n : Nat) : Int := if n < 32768 then (n : Int) else (n : Int) - 65536

/-- The 16 bits of a two's complement value. -/
def unsigned16 (t : Int) : Nat := (t % 65536).toNat

/-- One bit of the CRC-16 with the polynomial x^16 + x^12 + x^5 + 1 (R164), the bit already added at the top. -/
def crcBit (r : Nat) : Nat :=
  if r ≥ 32768 then ((r * 2) % 65536) ^^^ 0x1021 else r * 2

/-- One byte of the CRC-16, most significant bit first. -/
def crcByte (r : Nat) (b : Byte) : Nat :=
  crcBit (crcBit (crcBit (crcBit (crcBit (crcBit (crcBit (crcBit (r ^^^ (b.toNat * 256)))))))))

/-- The CRC-16 over bytes, from the initial value 0xFFFF, with no final inversion (R164). -/
def crc16 (bs : List Byte) : Nat := bs.foldl crcByte 0xFFFF

end Sys2Proof.Machine
end

