-- ==== Sys2Proof/Machine/Flags.lean ====
section
/-! DEFINITION. The notice flags (section 11.3): raising, clearing, the enable mask, the level flags, ATTN. -/

namespace Sys2Proof.Machine

open Sys2Proof

/-- The flags in the order of their numbers 1 to 13. -/
def allFlags : List Flag :=
  [.startLogged, .slotAdvisory, .slotDue, .slotFrozen, .hireAutoClosed, .historyNearFull, .historyMerged,
    .conditionStale, .supplyWarning, .retentionFault, .restored, .linkOverrun, .streamEnded]

/-- A flag's number (section 11.3). -/
def Flag.number : Flag → Nat
  | .startLogged => 1
  | .slotAdvisory => 2
  | .slotDue => 3
  | .slotFrozen => 4
  | .hireAutoClosed => 5
  | .historyNearFull => 6
  | .historyMerged => 7
  | .conditionStale => 8
  | .supplyWarning => 9
  | .retentionFault => 10
  | .restored => 11
  | .linkOverrun => 12
  | .streamEnded => 13

/-- A flag's state. -/
def FlagTable.get (t : FlagTable) : Flag → FlagState
  | .startLogged => t.startLogged
  | .slotAdvisory => t.slotAdvisory
  | .slotDue => t.slotDue
  | .slotFrozen => t.slotFrozen
  | .hireAutoClosed => t.hireAutoClosed
  | .historyNearFull => t.historyNearFull
  | .historyMerged => t.historyMerged
  | .conditionStale => t.conditionStale
  | .supplyWarning => t.supplyWarning
  | .retentionFault => t.retentionFault
  | .restored => t.restored
  | .linkOverrun => t.linkOverrun
  | .streamEnded => t.streamEnded

/-- The table whose state for each flag the function gives. -/
def FlagTable.ofFn (f : Flag → FlagState) : FlagTable where
  startLogged := f .startLogged
  slotAdvisory := f .slotAdvisory
  slotDue := f .slotDue
  slotFrozen := f .slotFrozen
  hireAutoClosed := f .hireAutoClosed
  historyNearFull := f .historyNearFull
  historyMerged := f .historyMerged
  conditionStale := f .conditionStale
  supplyWarning := f .supplyWarning
  retentionFault := f .retentionFault
  restored := f .restored
  linkOverrun := f .linkOverrun
  streamEnded := f .streamEnded

/-- The table with one flag's state replaced. -/
def FlagTable.set (t : FlagTable) (f : Flag) (v : FlagState) : FlagTable :=
  FlagTable.ofFn fun g => if g = f then v else t.get g

/-- A flag after a raise at an instant: a set flag stands as it is, a clear one is set and, if enabled, its notice
joins the pending set (R180). -/
def FlagState.raised (st : FlagState) (d : Detail) (t : MeterTime) : FlagState :=
  match st.set with
  | some _ => st
  | none => { set := some ⟨d, t⟩, enabled := st.enabled, notice := st.enabled }

/-- The raise of a flag (R180), with the meter time of the raise. -/
def raise (f : Flag) (d : Detail) (s : State) : State :=
  { s with link.flags := s.link.flags.set f ((s.link.flags.get f).raised d s.clock.time) }

/-- The raise of one flag for the slots on which an event has set its mark. With several, which of them is first is
free (log 6). -/
def raiseForSlots (f : Flag) (ks : List Slot) (s : State) : State :=
  match ks with
  | [] => s
  | [k] => raise f (.index k.val) s
  | k :: rest =>
    let pick := (k :: rest).getD (Config.freePick s.freePicks % (rest.length + 1)) k
    raise f (.index pick.val) { s with freePicks := s.freePicks + 1 }

/-- The bit of a flag in a 2-byte flag set or mask (section 11.7.1). -/
def maskBit (mask : Nat) (f : Flag) : Bool := mask.testBit (f.number - 1)

/-- A set of flags as a 2-byte value. -/
def flagWord (p : Flag → Bool) : Nat :=
  allFlags.foldl (fun n f => if p f then n + 2 ^ (f.number - 1) else n) 0

/-- The flags set, as a 2-byte value. -/
def FlagTable.setWord (t : FlagTable) : Nat := flagWord fun f => (t.get f).set.isSome

/-- The enable mask, as a 2-byte value. -/
def FlagTable.maskWord (t : FlagTable) : Nat := flagWord fun f => (t.get f).enabled

/-- A new enable mask (R180): a flag that becomes enabled while set gets its notice, one that becomes disabled loses
it. -/
def FlagTable.remask (t : FlagTable) (mask : Nat) : FlagTable :=
  FlagTable.ofFn fun f =>
    let st := t.get f
    let on := maskBit mask f
    { set := st.set, enabled := on,
      notice := on && (st.notice || (!st.enabled && st.set.isSome)) }

/-- Every flag in the mask is cleared and loses its pending notice (R181). -/
def FlagTable.clear (t : FlagTable) (mask : Nat) : FlagTable :=
  FlagTable.ofFn fun f =>
    if maskBit mask f then { set := none, enabled := (t.get f).enabled, notice := false } else t.get f

/-- The condition of a level flag, with the detail of its new raise (R181); none for the other flags. -/
def levelDetail (s : State) : Flag → Option Detail
  | .conditionStale => if s.duty.fresh then none else some .none
  | .supplyWarning => if s.inputs.supply = .warning then some .none else none
  | .slotDue => (s.table.slots.indices (·.due)).head?.map fun k => .index k.val
  | .slotFrozen => (s.table.slots.indices (·.frozen)).head?.map fun k => .index k.val
  | _ => none

/-- CLEAR_FLAGS on the flags (R181): the masked flags are cleared; then the four level flags are tested, in the mask or
not, and each whose condition holds is raised, which leaves one that is still set as it is (R88, R180). -/
def clearFlagsIn (mask : Nat) (s : State) : State :=
  { s with link.flags := FlagTable.ofFn fun f =>
      let st := (s.link.flags.clear mask).get f
      match levelDetail s f with
      | some d => st.raised d s.clock.time
      | none => st }

/-- At least one enabled flag is set. -/
def FlagTable.anyEnabledSet (t : FlagTable) : Bool :=
  allFlags.any fun f => (t.get f).enabled && (t.get f).set.isSome

/-- The ATTN pin, true for driven low (R182): released while RESETn is low and through start-up. The
pin is no field of State (log 23). -/
def State.attnLow (s : State) : Bool :=
  (s.awake || s.clock.power == .sleep) && s.link.flags.anyEnabledSet

end Sys2Proof.Machine
end

