-- ==== Sys2Proof/Machine/Operands.lean ====
section
/-! DEFINITION. The operands of requests and the layouts of frames: enumeration codes, payload fields read and written
(section 11.7), frames on the line and the receiver that gathers them (R176, R177). -/

namespace Sys2Proof.Machine

open Sys2Proof

/-! ## Codes (sections 11.2 and 11.7.1) -/

/-- The outcome byte (R179). -/
def ReplyCode.code : ReplyCode → Nat
  | .done => 0x00
  | .doneNotRetained => 0x01
  | .refusedLength => 0x10
  | .refusedUnknown => 0x11
  | .refusedRange => 0x12
  | .refusedSetupActive => 0x13
  | .refusedNotInSetup => 0x14
  | .refusedHireOpen => 0x15
  | .refusedNoHire => 0x16
  | .refusedInvalidConfig => 0x17
  | .refusedIgnition => 0x18
  | .refusedEngine => 0x19

/-- Power state. Only RUN and DOZE are ever sent, since requests are taken and reports formed while awake (R154). -/
def Power.code : Power → Nat
  | .run => 0
  | _ => 1

/-- Engine state. -/
def Engine.code : Engine → Nat
  | .off => 0
  | .ready => 1
  | .cranking => 2
  | .confirming => 3
  | .running => 4
  | .runDown => 5

/-- Clutch state. -/
def Clutch.code : Clutch → Nat
  | .idle => 0
  | .opened => 1
  | .slipping => 2
  | .locked => 3

/-- Yes/no, on/off, present. -/
def boolCode (b : Bool) : Nat := if b then 1 else 0

/-- Hire state: no hire, ACTIVE, SUSPENDED. -/
def hireStateCode (h : Option HireRecord) : Nat :=
  match h with
  | none => 0
  | some r => if r.suspended then 2 else 1

/-- Hire class. -/
def HireClass.code : HireClass → Nat
  | .customer => 0
  | .staff => 1
  | .workshop => 2

/-- The class of a summary. -/
def SummaryClass.code : SummaryClass → Nat
  | .one c => c.code
  | .mixed => 3

/-- Close cause. -/
def CloseCause.code : CloseCause → Nat
  | .hostClose => 0
  | .superseded => 1
  | .ignitionOff => 2

/-- Attempt class; also the bin of the START law (R69). -/
def AttemptClass.index : AttemptClass → Fin 8
  | .coldOk => 0
  | .warmOk => 1
  | .failed => 2
  | .reEngage => 3
  | .push => 4

/-- Law. -/
def Law.code : Law → Nat
  | .none => 0
  | .hour => 1
  | .slip => 2
  | .rev => 3
  | .start => 4
  | .shift => 5

/-- Load state. -/
def LoadState.code : LoadState → Nat
  | .unladen => 0
  | .laden => 1
  | .towing => 2

/-- Active edge. -/
def ActiveEdge.code : ActiveEdge → Nat
  | .rising => 0
  | .falling => 1
  | .both => 2

/-- Polarity. -/
def Polarity.code : Polarity → Nat
  | .activeHigh => 0
  | .activeLow => 1

/-- Commit state. -/
def Commit.code : Commit → Nat
  | .idle => 0
  | .inFlight _ => 1
  | .inFlightPending _ => 2

/-- Restore outcome. -/
def RestoreOutcome.code : RestoreOutcome → Nat
  | .image => 0
  | .imageAfterFault => 1
  | .blank => 2

/-- Condition set, severity map. -/
def Conditions.code (c : Conditions) : Nat :=
  boolCode c.cold + 2 * boolCode c.hot + 4 * boolCode c.load + 8 * boolCode c.lowBattery

/-- Slot status. -/
def SlotMeters.statusCode (m : SlotMeters) : Nat :=
  boolCode m.advisory + 2 * boolCode m.due + 4 * boolCode m.frozen

/-- A law by its code; none for a code outside the defined values. -/
def lawOfCode : Nat → Option Law
  | 0 => some .none
  | 1 => some .hour
  | 2 => some .slip
  | 3 => some .rev
  | 4 => some .start
  | 5 => some .shift
  | _ => none

/-- A severity map by its byte; none when one of bits 4 to 7 is set (R139). -/
def conditionsOfCode (n : Nat) : Option Conditions :=
  if n < 16 then some ⟨n.testBit 0, n.testBit 1, n.testBit 2, n.testBit 3⟩ else none

/-- An active edge by its code. -/
def edgeOfCode : Nat → Option ActiveEdge
  | 0 => some .rising
  | 1 => some .falling
  | 2 => some .both
  | _ => none

/-- A polarity by its code. -/
def polarityOfCode : Nat → Option Polarity
  | 0 => some .activeHigh
  | 1 => some .activeLow
  | _ => none

/-- A class that a KEY_CLASS entry or the HIRE_POLICY can hold, by its code; MIXED is none (R141). -/
def classOfCode : Nat → Option HireClass
  | 0 => some .customer
  | 1 => some .staff
  | 2 => some .workshop
  | _ => none

/-- A yes/no field or a presence byte by its code. -/
def boolOfCode : Nat → Option Bool
  | 0 => some false
  | 1 => some true
  | _ => none

/-- A load state by its code (R41). -/
def loadOfCode : Nat → Option LoadState
  | 0 => some .unladen
  | 1 => some .laden
  | 2 => some .towing
  | _ => none

/-! ## Fields of a payload -/

/-- A field's bytes, hire numbers judged against a secured mark (section 11.7.1, R104). -/
def Field.encode (secured : Nat) : Field → List Byte
  | .num w v => bytesOf w v
  | .temp t => bytesOf 2 (unsigned16 t)
  | .time t => bytesOf 4 t.seconds ++ bytesOf 1 t.ticks
  | .opt w (some v) => bytesOf 1 1 ++ bytesOf w v
  | .opt w none => bytesOf 1 0 ++ bytesOf w 0
  | .optTemp (some t) => bytesOf 1 1 ++ bytesOf 2 (unsigned16 t)
  | .optTemp none => bytesOf 1 0 ++ bytesOf 2 0
  | .optTime (some t) => bytesOf 1 1 ++ (bytesOf 4 t.seconds ++ bytesOf 1 t.ticks)
  | .optTime none => bytesOf 1 0 ++ bytesOf 5 0
  | .hireNo (some n) =>
    if n < secured then bytesOf 1 1 ++ bytesOf 4 n else bytesOf 1 0 ++ bytesOf 4 0
  | .hireNo none => bytesOf 1 0 ++ bytesOf 4 0

/-- The bytes of fields in order. -/
def encodeFields (secured : Nat) (fs : List Field) : List Byte := fs.flatMap (Field.encode secured)

/-- The values of fields of given widths, in order, from a payload of exactly their length; none otherwise. -/
def splitFields : List Nat → List Byte → Option (List Nat)
  | [], [] => some []
  | [], _ :: _ => none
  | w :: ws, bs =>
    if bs.length < w then none
    else (splitFields ws (bs.drop w)).map fun vs => valueOf (bs.take w) :: vs

/-- Eight numbers of one width. -/
def nums8 (w : Nat) (e : Eight Nat) : List Field := e.toList.map (.num w)

/-- The eight recovery deltas or their absence: one presence byte, then 32 bytes (section 11.7.1). -/
def recoveryFields : Option (Eight Nat) → List Field
  | some e => .num 1 1 :: nums8 4 e
  | none => .num 1 0 :: nums8 4 (Eight.all 0)

/-- Start counts in class order. -/
def startFields (c : StartCounts) : List Field :=
  [.num 4 c.coldOk, .num 4 c.warmOk, .num 4 c.failed, .num 4 c.reEngage, .num 4 c.push]

/-- The ten counters in the order of section 11.7.1. -/
def counterFields (c : HireCounters) : List Field :=
  [.num 4 c.runTallies] ++ startFields c.starts ++
    [.num 4 c.stalls, .num 4 c.clutchEngagements, .num 4 c.gearEngagements, .num 4 c.outputRevolutions]

/-- The hire record (section 11.7.4). -/
def hireFields (h : HireRecord) : List Field :=
  [.hireNo (some h.number), .num 4 h.keyId, .num 1 h.cls.code, .num 2 h.generation, .time h.openTime,
    .num 1 (hireStateCode (some h))] ++ nums8 4 h.main ++ recoveryFields h.recovery ++ counterFields h.counters

/-- A summary (section 11.7.4). -/
def summaryFields (m : Summary) : List Field :=
  [.hireNo (some m.first), .hireNo (some m.last), .num 4 m.keyId, .num 1 m.cls.code, .num 2 m.generation,
    .time m.openTime, .time m.closeTime, .num 1 m.cause.code, .num 4 m.merged] ++ nums8 4 m.main ++
    recoveryFields m.recovery ++ counterFields m.counters

/-- A start entry (section 11.7.4). -/
def startEntryFields (e : StartEntry) : List Field :=
  [.num 4 e.number, .time e.openTime, .num 1 e.cls.index.val, .num 2 e.tenths, .opt 2 e.batteryMin,
    .optTemp e.coolant, .hireNo e.hire]

/-- The status record (section 11.7.4) as it stands. R66 says that READ_STATUS carries E; the record's layout has no field
for a speed and none is sent: DESIGN CHOICE (log 33). -/
def statusFields (s : State) : List Field :=
  [.num 1 s.clock.power.code, .num 1 s.duty.engine.code, .num 1 s.duty.clutch.code, .num 1 s.duty.gear.val,
    .num 1 (boolCode s.inSetup), .num 2 s.config.generation, .num 1 (hireStateCode s.hires.current),
    .hireNo s.hireNumber, .num 1 s.hires.history.length, .num 2 s.link.flags.setWord,
    .num 2 s.link.flags.maskWord, .num 1 s.store.commit.code,
    .num 1 (s.store.usable.toList.filter id).length, .num 1 (boolCode (!s.duty.fresh)),
    .num 1 s.conditions.code, .time s.clock.time]

/-- A stream report (section 11.7.4) as the readings stand. -/
def reportFields (s : State) : List Field :=
  [.time s.clock.time, .num 1 s.duty.engine.code, .num 1 s.duty.clutch.code, .num 1 s.duty.gear.val,
    .num 2 s.inputs.eng.speed, .num 2 s.inputs.inp.speed, .num 2 s.inputs.out.speed, .num 2 s.inputs.vbat,
    .num 1 s.conditions.code, .num 1 (hireStateCode s.hires.current)]

/-- A notice (section 11.7.4): the detail right-aligned in four bytes, absent where there is none. -/
def noticeFields (f : Flag) (r : Raised) : List Field :=
  [.num 1 f.number,
    match r.detail with
    | .none => .opt 4 none
    | .index k => .opt 4 (some k)
    | .hire n => .hireNo n,
    .time r.time]

/-! ## Frames on the line (R176) -/

/-- The byte that opens a frame. -/
def syncByte : Byte := 0xA7

/-- The bytes the CRC is taken over: LEN, KIND, TAG and the payload. -/
def frameBody (f : Frame) : List Byte := BitVec.ofNat 8 f.payload.length :: f.kind :: f.tag :: f.payload

/-- A frame as it stands on the line (R176). -/
def wireBytes (f : Frame) : List Byte := syncByte :: (frameBody f ++ bytesOf 2 (crc16 (frameBody f)))

/-! ## The receiver (R177) -/

/-- Hunting: everything before a SYNC is disregarded. -/
def hunt : List RxItem → List RxItem
  | [] => []
  | .byte b :: rest => if b = syncByte then .byte b :: rest else hunt rest
  | .badStop _ :: rest => hunt rest
  | .gap :: rest => hunt rest

/-- The bytes before the first low stop bit or gap. -/
def goodBytes : List RxItem → List Byte
  | .byte b :: rest => b :: goodBytes rest
  | _ => []

/-- What the items gathered from a SYNC spell. -/
inductive Gathered where
  | hunting
  | incomplete
  | good (f : Frame) (rest : List RxItem)
  | discard (rest : List RxItem)
  deriving DecidableEq, Repr

/-- The frame gathered from the byte after a SYNC (R177). A discard leaves everything after the SYNC to be examined
again. -/
def gatherFrame (rest : List RxItem) : Gathered :=
  let bs := goodBytes rest
  let cut := decide (bs.length < rest.length)
  match bs with
  | [] => if cut then .discard rest else .incomplete
  | len :: more =>
    if len.toNat > 248 then .discard rest
    else if more.length < len.toNat + 4 then (if cut then .discard rest else .incomplete)
    else
      match more with
      | kind :: tag :: tail =>
        let f : Frame := ⟨kind, tag, tail.take len.toNat⟩
        if valueOf ((tail.drop len.toNat).take 2) = crc16 (frameBody f) then .good f (rest.drop (len.toNat + 5))
        else .discard rest
      | _ => .incomplete

/-- What the gathered items spell, after hunting. -/
def examine (items : List RxItem) : Gathered :=
  match hunt items with
  | [] => .hunting
  | _ :: rest => gatherFrame rest

/-- The receiver works through its items until it hunts or waits for more: the good frames found, in order, and what it
still holds. Each round disposes of at least one item, so the number of items bounds the rounds. After a good frame it
hunts behind the whole frame, also when the frame then finds the queue full and is discarded: DESIGN CHOICE (log 37). -/
def receiveAll : Nat → List RxItem → List Frame × List RxItem
  | 0, items => ([], hunt items)
  | n + 1, items =>
    match examine items with
    | .hunting => ([], [])
    | .incomplete => ([], hunt items)
    | .good f rest => (f :: (receiveAll n rest).1, (receiveAll n rest).2)
    | .discard rest => receiveAll n rest

end Sys2Proof.Machine
end

