-- ==== Sys2Proof/Machine/Items.lean ====
section
/-! DEFINITION. The configuration items: identifiers, layouts, storage of values outside their ranges, reading back, and
the four tests of ARM (sections 8.3, 8.4 and 11.7.5). -/

namespace Sys2Proof.Machine

open Sys2Proof

/-- An index of eight from a number below 8. -/
def eightIndex (n : Nat) : Option (Fin 8) := if h : n < 8 then some ⟨n, h⟩ else none

/-- The item an identifier names (section 8.3). -/
def itemOfId (n : Nat) : Option ItemId :=
  match n with
  | 8 => some .bands
  | 9 => some .gears
  | 10 => some .engine
  | 11 => some .clutch
  | 12 => some .shift
  | 13 => some (.channel .eng)
  | 14 => some (.channel .inp)
  | 15 => some (.channel .out)
  | 16 => some (.line .ign)
  | 17 => some (.line .crk)
  | 18 => some (.line .clu)
  | 19 => some (.line .rvs)
  | 20 => some .conditions
  | 21 => some (.lamp .lamp1)
  | 22 => some (.lamp .lamp2)
  | 31 => some .policy
  | 32 => some .timing
  | n =>
    if n < 8 then (eightIndex n).map .slot
    else if 23 ≤ n ∧ n ≤ 30 then (eightIndex (n - 23)).map .keyClass
    else none

/-- An item's identifier (section 8.3). -/
def ItemId.number : ItemId → Nat
  | .slot k => k.val
  | .bands => 8
  | .gears => 9
  | .engine => 10
  | .clutch => 11
  | .shift => 12
  | .channel .eng => 13
  | .channel .inp => 14
  | .channel .out => 15
  | .line .ign => 16
  | .line .crk => 17
  | .line .clu => 18
  | .line .rvs => 19
  | .conditions => 20
  | .lamp .lamp1 => 21
  | .lamp .lamp2 => 22
  | .keyClass k => 23 + k.val
  | .policy => 31
  | .timing => 32

/-- The widths of an item's fields in order (section 11.7.5). -/
def ItemId.widths : ItemId → List Nat
  | .slot _ => [1, 2, 2, 2, 2, 2, 2, 2, 2, 1, 4, 2]
  | .bands => [2, 2, 2, 2, 2, 2, 2, 2]
  | .gears => [1, 2, 2, 1, 2, 2, 1, 2, 2, 1, 2, 2, 1, 2, 2, 1, 2, 2]
  | .engine => [2, 2, 2]
  | .clutch => [2, 2]
  | .shift => [2, 2]
  | .channel _ => [1, 1, 2, 2]
  | .line _ => [1, 2]
  | .conditions => [2, 2, 2, 1, 1, 1, 1]
  | .lamp _ => [1, 1, 1, 1]
  | .keyClass _ => [1, 4, 1, 1, 4, 1]
  | .policy => [1, 1, 1]
  | .timing => [2, 2, 1]

/-- An item's length in bytes (section 11.7.5). -/
def ItemId.length (i : ItemId) : Nat := i.widths.sum

/-- An optional field: absent with zero value bytes, or present; none for another presence byte or an absent field
whose value bytes are not all zero (R139). -/
def optField (presence value : Nat) : Option (Option Nat) :=
  match presence with
  | 0 => if value = 0 then some none else none
  | 1 => some (some value)
  | _ => none

/-- A GEARS entry (R141). -/
def gearEntryOf (presence nominal tolerance : Nat) : Option (Option GearEntry) :=
  match presence with
  | 0 => if nominal = 0 ∧ tolerance = 0 then some none else none
  | 1 => some (some ⟨clamp 1 30000 nominal, clamp 1 2000 tolerance⟩)
  | _ => none

/-- The slots of a slot map byte: bit k stands for slot k, which the manual does not say: DESIGN CHOICE (log 34). -/
def slotMapOf (n : Nat) : Eight Bool := Eight.ofFn fun k => n.testBit k.val

/-- The byte of a slot map, bit k for slot k (log 34). -/
def slotMapCode (e : Eight Bool) : Nat :=
  boolCode e.s0 + 2 * boolCode e.s1 + 4 * boolCode e.s2 + 8 * boolCode e.s3 + 16 * boolCode e.s4 +
    32 * boolCode e.s5 + 64 * boolCode e.s6 + 128 * boolCode e.s7

/-- SLOT k from its fields. -/
def slotItem (k : Slot) : List Nat → Option ItemValue
  | [law, w0, w1, w2, w3, w4, w5, w6, w7, map, advisory, limit] => do
    let l ← lawOfCode law
    let c ← conditionsOfCode map
    return .slot k ⟨l, ⟨w0, w1, w2, w3, w4, w5, w6, w7⟩, c, advisory, limit⟩
  | _ => none

/-- GEARS from its fields. -/
def gearsItem : List Nat → Option ItemValue
  | [p1, n1, t1, p2, n2, t2, p3, n3, t3, p4, n4, t4, p5, n5, t5, p6, n6, t6] => do
    let e1 ← gearEntryOf p1 n1 t1
    let e2 ← gearEntryOf p2 n2 t2
    let e3 ← gearEntryOf p3 n3 t3
    let e4 ← gearEntryOf p4 n4 t4
    let e5 ← gearEntryOf p5 n5 t5
    let e6 ← gearEntryOf p6 n6 t6
    return .gears ⟨e1, e2, e3, e4, e5, e6⟩
  | _ => none

/-- CONDITIONS from its fields. -/
def conditionsItem : List Nat → Option ItemValue
  | [cold, hot, low, lc, lh, ll, lb] =>
    some (.conditions ⟨clampInt (-40) 150 (signed16 cold), clampInt (-40) 150 (signed16 hot), clamp 0 32000 low,
      clamp 0 3 lc, clamp 0 3 lh, clamp 0 3 ll, clamp 0 3 lb⟩)
  | _ => none

/-- KEY_CLASS i from its fields. -/
def keyClassItem (k : Fin 8) : List Nat → Option ItemValue
  | [enabled, base, prefixLength, presence, alternate, cls] => do
    let e ← boolOfCode enabled
    let a ← optField presence alternate
    let c ← classOfCode cls
    return .keyClass k ⟨e, base, clamp 0 32 prefixLength, a, c⟩
  | _ => none

/-- HIRE_POLICY from its fields. -/
def policyItem : List Nat → Option ItemValue
  | [presence, forced, closes] => do
    let o ← optField presence forced
    let f ← match o with
      | none => some none
      | some n => (classOfCode n).map some
    if closes < 8 then
      return .policy ⟨f, closes.testBit 0, closes.testBit 1, closes.testBit 2⟩
    else none
  | _ => none

/-- An item from the values of its fields: enumerated fields by their codes, numeric fields at the nearest end of their
ranges (R139, R141). None where a code is undefined: the request is then refused with REFUSED_RANGE. -/
def itemOfFields (i : ItemId) (vs : List Nat) : Option ItemValue :=
  match i, vs with
  | .slot k, vs => slotItem k vs
  | .bands, [a, b, c, d, e, f, g, h] => some (.bands (Eight.map (clamp 0 12000) ⟨a, b, c, d, e, f, g, h⟩))
  | .gears, vs => gearsItem vs
  | .engine, [run, stall, confirm] =>
    some (.engine ⟨clamp 100 3000 run, clamp 50 2999 stall, clamp 100 5000 confirm⟩)
  | .clutch, [tolerance, lock] => some (.clutch ⟨clamp 0 500 tolerance, clamp 50 2000 lock⟩)
  | .shift, [confirm, oMin] => some (.shift ⟨clamp 100 3000 confirm, clamp 1 500 oMin⟩)
  | .channel c, [ppr, edge, interval, stall] =>
    (edgeOfCode edge).map fun e => .channel c ⟨clamp 1 255 ppr, e, interval, clamp 10 2000 stall⟩
  | .line l, [polarity, debounce] => (polarityOfCode polarity).map fun p => .line l ⟨p, clamp 0 255 debounce⟩
  | .conditions, vs => conditionsItem vs
  | .lamp m, [map, period, duty, polarity] =>
    (polarityOfCode polarity).map fun p => .lamp m ⟨slotMapOf map, clamp 1 255 period, duty, p⟩
  | .keyClass k, vs => keyClassItem k vs
  | .policy, vs => policyItem vs
  | .timing, [checkpoint, doze, wake] =>
    (boolOfCode wake).map fun w => .timing ⟨clamp 10 3600 checkpoint, clamp 10 65535 doze, w⟩
  | _, _ => none

/-- A set with one item replaced, the item as a whole (R139). -/
def storeItem (c : Settings) : ItemValue → Settings
  | .slot k v => { c with slots := c.slots.set k v }
  | .bands v => { c with bands := v }
  | .gears v => { c with gears := v }
  | .engine v => { c with engine := v }
  | .clutch v => { c with clutch := v }
  | .shift v => { c with shift := v }
  | .channel .eng v => { c with chEng := v }
  | .channel .inp v => { c with chInp := v }
  | .channel .out v => { c with chOut := v }
  | .line .ign v => { c with ign := v }
  | .line .crk v => { c with crk := v }
  | .line .clu v => { c with clu := v }
  | .line .rvs v => { c with rvs := v }
  | .conditions v => { c with conditions := v }
  | .lamp .lamp1 v => { c with lamp1 := v }
  | .lamp .lamp2 v => { c with lamp2 := v }
  | .keyClass k v => { c with keys := c.keys.set k v }
  | .policy v => { c with policy := v }
  | .timing v => { c with timing := v }

/-- The fields of a GEARS entry. -/
def gearEntryFields : Option GearEntry → List Field
  | none => [.num 1 0, .num 2 0, .num 2 0]
  | some e => [.num 1 1, .num 2 e.nominal, .num 2 e.tolerance]

/-- The fields of an item as a set holds it (section 11.7.5). -/
def itemFields (c : Settings) : ItemId → List Field
  | .slot k =>
    let v := c.slots.get k
    [.num 1 v.law.code] ++ nums8 2 v.weights ++ [.num 1 v.map.code, .num 4 v.advisory, .num 2 v.limit]
  | .bands => nums8 2 c.bands
  | .gears => c.gears.toList.flatMap gearEntryFields
  | .engine => [.num 2 c.engine.runSpeed, .num 2 c.engine.stallSpeed, .num 2 c.engine.confirmMs]
  | .clutch => [.num 2 c.clutch.tolerance, .num 2 c.clutch.lockMs]
  | .shift => [.num 2 c.shift.confirmMs, .num 2 c.shift.oMinimum]
  | .channel ch =>
    let v := c.channel ch
    [.num 1 v.ppr, .num 1 v.edge.code, .num 2 v.minInterval, .num 2 v.stallMs]
  | .line l =>
    let v := c.line l
    [.num 1 v.polarity.code, .num 2 v.debounceMs]
  | .conditions =>
    let v := c.conditions
    [.temp v.coldLimit, .temp v.hotLimit, .num 2 v.lowBatteryLimit, .num 1 v.levelCold, .num 1 v.levelHot,
      .num 1 v.levelLoad, .num 1 v.levelLowBattery]
  | .lamp m =>
    let v := match m with
      | .lamp1 => c.lamp1
      | .lamp2 => c.lamp2
    [.num 1 (slotMapCode v.map), .num 1 v.period, .num 1 v.duty, .num 1 v.polarity.code]
  | .keyClass k =>
    let v := c.keys.get k
    [.num 1 (boolCode v.enabled), .num 4 v.base, .num 1 v.prefixLength, .opt 4 v.alternate, .num 1 v.cls.code]
  | .policy =>
    let v := c.policy
    [.opt 1 (v.forced.map HireClass.code),
      .num 1 (boolCode v.closeCustomer + 2 * boolCode v.closeStaff + 4 * boolCode v.closeWorkshop)]
  | .timing => [.num 2 c.timing.checkpointS, .num 2 c.timing.dozeS, .num 1 (boolCode c.timing.wakeOnShaft)]

/-! ## The tests of ARM (R142) -/

/-- Each number is above the one before it. -/
def ascends : List Nat → Bool
  | a :: b :: rest => decide (a < b) && ascends (b :: rest)
  | _ => true

/-- Each number is below the one before it. -/
def descends : List Nat → Bool
  | a :: b :: rest => decide (b < a) && descends (b :: rest)
  | _ => true

/-- BANDS: edge 0 is 0 and the edges ascend. -/
def bandsPass (e : Eight Nat) : Bool := e.s0 == 0 && ascends e.toList

/-- The present entries run without a gap from entry 1. -/
def noGap (es : List (Option GearEntry)) : Bool := (es.dropWhile Option.isSome).all Option.isNone

/-- A ratio lies in the window of an entry, both ends included (section 2.3). No window contains ratio 0 (R38), not even
that of an entry whose tolerance is at or above its nominal: DEDUCED (log 31). -/
def GearEntry.contains (e : GearEntry) (ratio : Nat) : Bool :=
  decide (0 < ratio ∧ e.nominal ≤ ratio + e.tolerance ∧ ratio ≤ e.nominal + e.tolerance)

/-- No entry's nominal lies in the window of another entry (R37). -/
def windowsApart (es : List GearEntry) : Bool :=
  match es with
  | [] => true
  | e :: rest => rest.all (fun f => !e.contains f.nominal && !f.contains e.nominal) && windowsApart rest

/-- GEARS: no gap, descending nominals, no nominal in another window (R37, R142). -/
def gearsPass (g : Six (Option GearEntry)) : Bool :=
  let present := g.toList.filterMap id
  noGap g.toList && descends (present.map (·.nominal)) && windowsApart present

/-- The identifier of the first item that fails its test, in ascending order (R142). -/
def firstFailing (c : Settings) : Option Nat :=
  if !bandsPass c.bands then some 8
  else if !gearsPass c.gears then some 9
  else if !decide (c.engine.stallSpeed < c.engine.runSpeed) then some 10
  else if !decide (c.conditions.coldLimit < c.conditions.hotLimit) then some 20
  else none

end Sys2Proof.Machine
end

