-- ==== Sys2Proof/Machine/Lamps.lean ====
section
/-! DEFINITION. The service lamps (section 5.3): modes formed from the slots' marks, blinking, the lamp check, the pin
levels. -/

namespace Sys2Proof.Machine

open Sys2Proof

/-- The lit part of a lamp's period holds this phase (R96): a lamp step of 20 ms is five ticks. -/
def LampSettings.litAt (c : LampSettings) (phase : Nat) : Bool := decide (phase < c.duty * 5)

/-- Some slot of the map passes a test. -/
def LampSettings.anySlot (c : LampSettings) (slots : Eight SlotMeters) (p : SlotMeters → Bool) : Bool :=
  (Eight.zip (fun inMap m => inMap && p m) c.map slots).toList.any id

/-- A lamp whose mode is formed from the marks as they stand (R94). During the lamp check it stays lit (R97); a lamp
that stays in BLINK keeps its phase; one that enters it starts at phase 0 (R96). -/
def formLamp (c : LampSettings) (slots : Eight SlotMeters) (l : Lamp) : Lamp :=
  if l.mode = .check then l
  else if c.anySlot slots (·.due) then ⟨.steady, 0, true⟩
  else if c.anySlot slots (·.advisory) then
    if l.mode = .blink then l else ⟨.blink, 0, c.litAt 0⟩
  else lampDark

/-- Both lamps formed from the marks, while the part is awake (R94). -/
def formLamps (s : State) : State :=
  if s.awake then
    { s with
      table.lamp1 := formLamp s.config.armed.lamp1 s.table.slots s.table.lamp1,
      table.lamp2 := formLamp s.config.armed.lamp2 s.table.slots s.table.lamp2 }
  else s

/-- Both lamps formed afresh, whatever they showed: the end of start-up, a wake, the end of the lamp check
(R97, R99). -/
def formLampsAfresh (s : State) : State :=
  formLamps { s with table.lamp1 := lampDark, table.lamp2 := lampDark }

/-- A lamp after an ARM that changed its item (R98): a phase beyond the new period returns to 0, and a lamp in BLINK is
lit by its phase against the new duty. -/
def rearmLamp (old new : LampSettings) (slots : Eight SlotMeters) (l : Lamp) : Lamp :=
  let f := formLamp new slots l
  if old = new then f
  else if f.mode = .blink then
    let phase := if f.phase ≥ new.period * 5 then 0 else f.phase
    ⟨.blink, phase, new.litAt phase⟩
  else f

/-- One tick of a lamp in BLINK (R96). -/
def tickLamp (c : LampSettings) (l : Lamp) : Lamp :=
  if l.mode = .blink then { l with phase := if l.phase + 1 ≥ c.period * 5 then 0 else l.phase + 1 } else l

/-- The phase of a lamp in BLINK has passed a boundary that its pin does not show yet (R96). -/
def boundaryDue (c : LampSettings) (l : Lamp) : Bool := l.mode == .blink && l.lit != c.litAt l.phase

/-- The switch between lit and dark at a boundary (R96). -/
def takeBoundary (c : LampSettings) (l : Lamp) : Lamp :=
  if boundaryDue c l then { l with lit := c.litAt l.phase } else l

/-- A lamp's settings. -/
def Settings.lamp (c : Settings) : LampId → LampSettings
  | .lamp1 => c.lamp1
  | .lamp2 => c.lamp2

/-- A lamp's state. -/
def Table.lamp (t : Table) : LampId → Lamp
  | .lamp1 => t.lamp1
  | .lamp2 => t.lamp2

/-- The blink boundary of one lamp, if one is due. -/
def takeLampBoundary (m : LampId) (s : State) : State :=
  match m with
  | .lamp1 => { s with table.lamp1 := takeBoundary s.config.armed.lamp1 s.table.lamp1 }
  | .lamp2 => { s with table.lamp2 := takeBoundary s.config.armed.lamp2 s.table.lamp2 }

/-- The start of the lamp check: both lamps lit for 500 ticks (R97). -/
def startLampCheck (s : State) : State :=
  { s with table.lamp1 := ⟨.check, 0, true⟩, table.lamp2 := ⟨.check, 0, true⟩, clock.lampCheck := some 500 }

/-- The end of a lamp check whose ticks have run (R97). -/
def takeLampCheckEnd (s : State) : State :=
  if s.clock.lampCheck = some 0 then formLampsAfresh { s with clock.lampCheck := none } else s

/-- The level of a lamp pin, true for high (R95): low without supply, while RESETn is low and in the restore step;
else by the polarity of the armed set. The pin is no field of State (log 23). -/
def State.lampHigh (s : State) (m : LampId) : Bool :=
  s.ticking && corrected (s.config.armed.lamp m).polarity (s.table.lamp m).lit

end Sys2Proof.Machine
end

