-- ==== Sys2Proof/Machine/Wear.lean ====
section
/-! DEFINITION. The Wear Calculator (chapter 4): quantities, bins, severity, the raw increment, the carry through the
residue, freezing, delivery to the slot and to the attribution target, and the marks (section 5.1.2). -/

namespace Sys2Proof.Machine

open Sys2Proof

/-- The clamp of a raw increment (R74). -/
def rawTop : Nat := 16777215

/-- The raw increment of a quantity, a weight, a severity and a divisor, in 1/256 WU (R73, R74). -/
def rawIncrement (q w sev d : Nat) : Nat := min (q * w * sev / d) rawTop

/-- The severity level of a slot: the highest level among the conditions both active and in its map (R71). -/
def severityLevel (c : ConditionSettings) (active map : Conditions) : Nat :=
  max (max (if active.cold && map.cold then c.levelCold else 0) (if active.hot && map.hot then c.levelHot else 0))
    (max (if active.load && map.load then c.levelLoad else 0)
      (if active.lowBattery && map.lowBattery then c.levelLowBattery else 0))

/-- The severity multiplier (R71). -/
def severity (c : ConditionSettings) (active map : Conditions) : Nat := 2 ^ severityLevel c active map

/-- The engine speed band: the highest index whose edge is at or below E (R66). -/
def bandOf (edges : Eight Nat) (e : Nat) : Fin 8 :=
  if edges.s7 ≤ e then 7
  else if edges.s6 ≤ e then 6
  else if edges.s5 ≤ e then 5
  else if edges.s4 ≤ e then 4
  else if edges.s3 ≤ e then 3
  else if edges.s2 ≤ e then 2
  else if edges.s1 ≤ e then 1
  else 0

/-- The service limit's threshold in WU: steps of 65,536 (section 5.1.1). -/
def SlotSettings.dueAt (c : SlotSettings) : Nat := c.limit * 65536

/-- The test of the ADVISORY mark (R86). -/
def SlotSettings.advisoryHolds (c : SlotSettings) (since : Nat) : Bool := c.advisory != 0 && decide (c.advisory ≤ since)

/-- The test of the DUE mark (R86). -/
def SlotSettings.dueHolds (c : SlotSettings) (since : Nat) : Bool := c.limit != 0 && decide (c.dueAt ≤ since)

/-- The delivery of a whole increment to a slot's meters, and the thresholds tested after it (R78, R86). -/
def deliverSlot (c : SlotSettings) (w : Nat) (m : SlotMeters) : SlotMeters :=
  let since := satAdd m.sinceService w
  { m with
    total := m.total + w, unitTotal := satAdd m.unitTotal w, sinceService := since,
    advisory := m.advisory || c.advisoryHolds since, due := m.due || c.dueHolds since }

/-- The whole increment of a raw increment carried through a residue (R75). -/
def wholeIncrement (m : SlotMeters) (raw : Nat) : Nat := (m.residue + raw) / 256

/-- The raw increment of a slot taken: the carry (R75), the discard of a FROZEN slot (R76), the freeze (R77) or the
delivery (R78). -/
def chargeSlot (c : SlotSettings) (raw : Nat) (m : SlotMeters) : SlotMeters :=
  let w := wholeIncrement m raw
  let carried := { m with residue := (m.residue + raw) % 256 }
  if m.frozen || w == 0 then carried
  else if m.total + w > top32 then { carried with frozen := true }
  else deliverSlot c w carried

/-- The whole units that the taking of a raw increment delivers to the attribution target (R76 to R78). -/
def delivered (raw : Nat) (m : SlotMeters) : Nat :=
  let w := wholeIncrement m raw
  if m.frozen || m.total + w > top32 then 0 else w

/-- Whole units added to the one attribution target of the event, slot by slot (R79, R115). -/
def creditTarget (ws : Eight Nat) (h : Hires) : Hires :=
  match h.current with
  | none => { h with idle := Eight.zip (· + ·) h.idle ws }
  | some r =>
    if r.suspended then
      { h with current := some { r with recovery := some (Eight.zip (· + ·) (r.recovery.getD zeroAccounts) ws) } }
    else { h with current := some { r with main := Eight.zip (· + ·) r.main ws } }

/-- The slots on which an event has newly set a mark. -/
def newlySet (p : SlotMeters → Bool) (before after : Eight SlotMeters) : List Slot :=
  (Eight.zip (fun b a => !p b && p a) before after).indices id

/-- The flags of the marks that an event has newly set (R77, R86, R87). -/
def raiseMarks (before : Eight SlotMeters) (s : State) : State :=
  raiseForSlots .slotDue (newlySet (·.due) before s.table.slots)
    (raiseForSlots .slotAdvisory (newlySet (·.advisory) before s.table.slots)
      (raiseForSlots .slotFrozen (newlySet (·.frozen) before s.table.slots) s))

/-- What follows a change of marks: the flags of the marks newly set, and the lamps formed from the marks (R94). -/
def marksChanged (before : Eight SlotMeters) (s : State) : State := formLamps (raiseMarks before s)

/-- The slots after an event that gives each slot concerned a raw increment. -/
def chargeAll (cs : Eight SlotSettings) (raws : Eight (Option Nat)) (ms : Eight SlotMeters) : Eight SlotMeters :=
  Eight.ofFn fun k =>
    match raws.get k with
    | none => ms.get k
    | some r => chargeSlot (cs.get k) r (ms.get k)

/-- The whole units that the event delivers, slot by slot. -/
def deliveredAll (raws : Eight (Option Nat)) (ms : Eight SlotMeters) : Eight Nat :=
  Eight.ofFn fun k =>
    match raws.get k with
    | none => 0
    | some r => delivered r (ms.get k)

/-- One event of the arithmetic, taken whole for all the slots it concerns (R63). -/
def charge (raws : Eight (Option Nat)) (s : State) : State :=
  marksChanged s.table.slots
    { s with
      table.slots := chargeAll s.config.armed.slots raws s.table.slots,
      hires := creditTarget (deliveredAll raws s.table.slots) s.hires }

/-- The raw increment of a slot at a tally, by its law (R65, R67, R68); none for the laws of other events. -/
def tallyRaw (drained : Nat) (s : State) (c : SlotSettings) : Option Nat :=
  let sev := severity s.config.armed.conditions s.conditions c.map
  match c.law with
  | .hour =>
    some (rawIncrement (if s.duty.engine.turning then 1 else 0)
      (c.weights.get (bandOf s.config.armed.bands s.inputs.eng.speed)) sev 1)
  | .slip => some (rawIncrement (if s.duty.clutch = .slipping then s.slip else 0) (c.weights.get s.duty.gear) sev 600)
  | .rev => some (rawIncrement drained (c.weights.get s.duty.gear) sev 1)
  | .none | .start | .shift => none

/-- The per-tally laws (R63). -/
def chargeTally (drained : Nat) (s : State) : State :=
  charge (s.config.armed.slots.map (tallyRaw drained s)) s

/-- The raw increment of a slot at the engagement of a gear (R70). -/
def shiftRaw (gear : Gear) (s : State) (c : SlotSettings) : Option Nat :=
  if c.law = .shift then
    some (rawIncrement 1 (c.weights.get gear) (severity s.config.armed.conditions s.conditions c.map) 1)
  else none

/-- The SHIFT law at the engagement of a gear. -/
def chargeShift (gear : Gear) (s : State) : State :=
  charge (s.config.armed.slots.map (shiftRaw gear s)) s

/-- The conditions of a start: those captured at the opening, and LOW_BATTERY by the attempt's own minimum (R72). -/
def startConditions (limit : Nat) (a : Attempt) (batteryMin : Option Nat) : Conditions where
  cold := a.cold
  hot := a.hot
  load := a.load
  lowBattery := match batteryMin with
    | some v => decide (v < limit)
    | none => false

/-- The raw increment of a slot at the close of a start attempt (R69, R72). -/
def startRaw (cls : AttemptClass) (tenths : Nat) (active : Conditions) (s : State) (c : SlotSettings) : Option Nat :=
  if c.law = .start then
    some (rawIncrement (clamp 1 300 tenths) (c.weights.get cls.index)
      (severity s.config.armed.conditions active c.map) 10)
  else none

/-- The START law at the close of a start attempt. -/
def chargeStart (cls : AttemptClass) (tenths : Nat) (active : Conditions) (s : State) : State :=
  charge (s.config.armed.slots.map (startRaw cls tenths active s)) s

/-- The ADVISORY and DUE marks of a slot under the thresholds as they stand (R87). -/
def remark (c : SlotSettings) (m : SlotMeters) : SlotMeters :=
  { m with advisory := c.advisoryHolds m.sinceService, due := c.dueHolds m.sinceService }

end Sys2Proof.Machine
end

