-- ==== Sys2Proof/Machine/Starts.lean ====
section
/-! DEFINITION. The Start Recorder (chapter 3): opening, measuring, classing, closing and logging start attempts. -/

namespace Sys2Proof.Machine

open Sys2Proof

/-- The record with which an attempt opens (R47): its fields are captured as they stand, and its crank runs unless it
is a push start. -/
def newAttempt (kind : AttemptKind) (s : State) : Attempt where
  openTime := s.clock.time
  kind := kind
  cold := s.conditions.cold
  hot := s.conditions.hot
  load := s.conditions.load
  coolant := if s.duty.fresh then s.duty.coolant else none
  hire := s.hireNumber
  crankRunning := kind != .push
  crankTicks := 0
  batteryMin := none

/-- An attempt opens (R47). -/
def openAttempt (kind : AttemptKind) (s : State) : State :=
  { s with starts.attempt := some (newAttempt kind s) }

/-- The crank of the open attempt stops (R48). -/
def stopCrank (s : State) : State :=
  { s with starts.attempt := s.starts.attempt.map fun a => { a with crankRunning := false } }

/-- The starter is pressed again within the attempt: a PUSH becomes a CRANK and the crank resumes (R51). -/
def resumeCrank (s : State) : State :=
  { s with starts.attempt := s.starts.attempt.map fun a =>
      { a with kind := if a.kind = .push then .crank else a.kind, crankRunning := true } }

/-- One tick of the crank (R49). -/
def Attempt.tick (a : Attempt) : Attempt :=
  if a.crankRunning then { a with crankTicks := min (a.crankTicks + 1) 16777215 } else a

/-- One VBAT sample of the crank (R50). -/
def Attempt.sample (v : Nat) (a : Attempt) : Attempt :=
  if a.crankRunning then
    { a with batteryMin := some (match a.batteryMin with
        | none => v
        | some m => min m v) }
  else a

/-- The class of a successful start (R25). -/
def Attempt.successClass (a : Attempt) : AttemptClass :=
  if a.kind = .push then .push else if a.cold then .coldOk else .warmOk

/-- The stored crank duration in tenths of a second (R52). -/
def Attempt.tenths (a : Attempt) : Nat := min (ceilDiv a.crankTicks 25) 300

/-- The battery minimum of a close: absent without crank ticks (R50). -/
def Attempt.closedMin (a : Attempt) : Option Nat := if a.crankTicks = 0 then none else a.batteryMin

/-- The lifetime counter and the open hire's counter of a class rise (R54). -/
def countStart (cls : AttemptClass) (s : State) : State :=
  ({ s with starts.life := s.starts.life.bump cls }).count fun c => { c with starts := c.starts.bump cls }

/-- The log entry of a closed attempt (R56). -/
def startEntry (a : Attempt) (cls : AttemptClass) (number : Nat) : StartEntry :=
  { number := number, openTime := a.openTime, cls := cls, tenths := a.tenths, batteryMin := a.closedMin,
    coolant := a.coolant, hire := a.hire }

/-- The number and the log entry of a closed attempt, newest first, at most 32 (R55 to R57); nothing while the numbers
are EXHAUSTED. -/
def logStart (a : Attempt) (cls : AttemptClass) (s : State) : State :=
  if s.starts.next ≥ exhausted then s
  else
    raise .startLogged (.hire a.hire)
      { s with
        starts.log := (startEntry a cls s.starts.next :: s.starts.log).take 32,
        starts.next := nextNumber s.starts.next }

/-- The open attempt closes with a class (R53): counted, charged under the START law, numbered and logged. -/
def closeAttempt (cls : AttemptClass) (s : State) : State :=
  match s.starts.attempt with
  | none => s
  | some a =>
    let active := startConditions s.config.armed.conditions.lowBatteryLimit a a.closedMin
    let closed := logStart a cls (chargeStart cls a.tenths active (countStart cls s))
    { closed with starts.attempt := none }

end Sys2Proof.Machine
end

