-- ==== Sys2Proof/Machine/Tracking.lean ====
section
/-! DEFINITION. The Duty Monitor (chapter 2): engine state, clutch state, gear tracking, plain meters, the declared
condition. -/

namespace Sys2Proof.Machine

open Sys2Proof

/-! ## Plain meters -/

/-- A change of the plain meters. -/
def onMeters (f : PlainMeters → PlainMeters) (s : State) : State := { s with duty.meters := f s.duty.meters }

/-! ## Clutch (section 2.2) -/

/-- The slip is within the lock tolerance (R33). -/
def State.slipWithin (s : State) : Bool := decide (s.slip ≤ s.config.armed.clutch.tolerance)

/-- The clutch goes to SLIPPING, and the lock timer starts if the slip is within the tolerance (R31, R32, R36). -/
def clutchToSlipping (s : State) : State :=
  { s with duty.clutch := .slipping, duty.lockTimer := if s.slipWithin then some 0 else none }

/-- The engine has entered the turning set: the clutch leaves IDLE (R31). -/
def clutchLeavesIdle (s : State) : State :=
  if s.inputs.clu.level then { s with duty.clutch := .opened, duty.lockTimer := none } else clutchToSlipping s

/-- The engine has left the turning set: the clutch goes to IDLE (R31). -/
def clutchToIdle (s : State) : State := { s with duty.clutch := .idle, duty.lockTimer := none }

/-- A change of CLU (R32). -/
def clutchPedal (active : Bool) (s : State) : State :=
  match active, s.duty.clutch with
  | true, .slipping | true, .locked => { s with duty.clutch := .opened, duty.lockTimer := none }
  | false, .opened =>
    clutchToSlipping
      ((onMeters (fun m => { m with clutchEngagements := satAdd m.clutchEngagements 1 }) s).count
        fun c => { c with clutchEngagements := satAdd c.clutchEngagements 1 })
  | _, _ => s

/-- A speed change event of E or I reaches the clutch (R33, R34). -/
def clutchSpeed (s : State) : State :=
  match s.duty.clutch with
  | .slipping =>
    { s with duty.lockTimer := if s.slipWithin then some (s.duty.lockTimer.getD 0) else none }
  | .locked =>
    if s.slipWithin then s
    else
      onMeters (fun m => { m with lockLosses := satAdd m.lockLosses 1 })
        { s with duty.clutch := .slipping, duty.lockTimer := none }
  | .idle | .opened => s

/-- The lock timer has run its ticks in SLIPPING (R33). -/
def lockDue (s : State) : Bool :=
  s.duty.clutch == .slipping &&
    match s.duty.lockTimer with
    | some t => decide (ceilDiv s.config.armed.clutch.lockMs 4 ≤ t)
    | none => false

/-- The expiry of the lock timer, if it is due (R33). -/
def takeLockExpiry (s : State) : State :=
  if lockDue s then { s with duty.clutch := .locked, duty.lockTimer := none } else s

/-! ## Engine (section 2.1) -/

/-- The engine moves to a state. The confirm timer starts at each entry to CONFIRMING and runs in no other state
(R24); the clutch follows the transitions into and out of the turning set (R20, R31). -/
def moveEngine (e : Engine) (s : State) : State :=
  let moved := { s with duty.engine := e, duty.confirmTimer := if e = .confirming then some 0 else none }
  if !s.duty.engine.turning && e.turning then clutchLeavesIdle moved
  else if s.duty.engine.turning && !e.turning then clutchToIdle moved
  else moved

/-- E is at or above the run speed. -/
def State.atRunSpeed (s : State) : Bool := decide (s.config.armed.engine.runSpeed ≤ s.inputs.eng.speed)

/-- E is at or above the stall speed. -/
def State.atStallSpeed (s : State) : Bool := decide (s.config.armed.engine.stallSpeed ≤ s.inputs.eng.speed)

/-- The engine moves to CRANKING and an attempt of kind CRANK opens. -/
def startCranking (s : State) : State := openAttempt .crank (moveEngine .cranking s)

/-- The engine moves to CONFIRMING and an attempt of kind PUSH opens. -/
def startPushed (s : State) : State := openAttempt .push (moveEngine .confirming s)

/-- An entry to READY with its entry test (R22). -/
def enterReady (s : State) : State :=
  let r := moveEngine .ready s
  if r.inputs.crk.level then startCranking r else if r.atRunSpeed then startPushed r else r

/-- After IGN becoming inactive with the engine turned by starter or fuel: RUN_DOWN or OFF by E (R23, R25). -/
def ignitionCut (s : State) : State := moveEngine (if s.atStallSpeed then .runDown else .off) s

/-- A change of the debounced IGN level reaches the engine. -/
def engineIgnition (active : Bool) (s : State) : State :=
  match s.duty.engine, active with
  | .off, true => enterReady s
  | .ready, false => moveEngine .off s
  | .cranking, false => ignitionCut (closeAttempt .failed s)
  | .confirming, false => ignitionCut (closeAttempt .failed s)
  | .running, false => moveEngine .runDown (closeAttempt .reEngage s)
  | .runDown, true =>
    if s.atStallSpeed then
      let r := moveEngine .running s
      if r.inputs.crk.level then openAttempt .reEngage r else r
    else enterReady s
  | _, _ => s

/-- A change of the debounced CRK level reaches the engine; it is disregarded in OFF and RUN_DOWN (R20). -/
def engineCrank (active : Bool) (s : State) : State :=
  match s.duty.engine, active with
  | .ready, true => startCranking s
  | .cranking, false =>
    if s.atRunSpeed then moveEngine .confirming (stopCrank s) else enterReady (closeAttempt .failed s)
  | .confirming, true => resumeCrank (moveEngine .cranking s)
  | .running, true => openAttempt .reEngage s
  | .running, false => closeAttempt .reEngage s
  | _, _ => s

/-- A stall from RUNNING (R26). -/
def engineStall (s : State) : State :=
  enterReady
    ((onMeters (fun m => { m with stalls := satAdd m.stalls 1 }) (closeAttempt .reEngage s)).count
      fun c => { c with stalls := satAdd c.stalls 1 })

/-- A speed change event of ENG reaches the engine, with the value E now holds (R20). -/
def engineSpeed (s : State) : State :=
  match s.duty.engine with
  | .ready => if !s.inputs.crk.level && s.atRunSpeed then startPushed s else s
  | .confirming => if s.atRunSpeed then s else enterReady (closeAttempt .failed s)
  | .running => if s.atStallSpeed then s else engineStall s
  | .runDown => if s.atStallSpeed then s else moveEngine .off s
  | .off | .cranking => s

/-- A speed change event of a channel reaches the Duty Monitor (R6), which takes none in the settle step (R17). One of
ENG goes to the engine and the clutch, in the order given; one of INP to the clutch. -/
def speedChanged (c : Shaft) (clutchFirst : Bool) (s : State) : State :=
  if s.awake then
    match c with
    | .eng => if clutchFirst then engineSpeed (clutchSpeed s) else clutchSpeed (engineSpeed s)
    | .inp => clutchSpeed s
    | .out => s
  else s

/-- The confirm timer has run its ticks in CONFIRMING (R24, R30). -/
def confirmDue (s : State) : Bool :=
  s.duty.engine == .confirming &&
    match s.duty.confirmTimer with
    | some t => decide (ceilDiv s.config.armed.engine.confirmMs 4 ≤ t)
    | none => false

/-- The expiry of the confirm timer, if it is due (R25): a successful start. -/
def takeConfirmExpiry (s : State) : State :=
  if confirmDue s then
    let cls := match s.starts.attempt with
      | some a => a.successClass
      | none => .warmOk
    moveEngine .running (closeAttempt cls s)
  else s

/-- The engine state at the end of settle (R29); no entry test follows. -/
def decideEngine (s : State) : State :=
  if !s.inputs.ign.level then { s with duty.engine := .off, duty.confirmTimer := none }
  else if s.atRunSpeed then { s with duty.engine := .running, duty.confirmTimer := none }
  else if s.inputs.crk.level then
    openAttempt .crank { s with duty.engine := .cranking, duty.confirmTimer := none }
  else { s with duty.engine := .ready, duty.confirmTimer := none }

/-- The clutch state at the end of settle (R36). -/
def decideClutch (s : State) : State :=
  if s.duty.engine = .running then clutchLeavesIdle s else clutchToIdle s

/-! ## Gears (section 2.3) -/

/-- The first present entry, in order from gear 1, whose window contains the ratio. -/
def gearOfRatio (ratio : Nat) : List (Gear × Option GearEntry) → Gear
  | [] => 0
  | (g, some e) :: rest => if e.contains ratio then g else gearOfRatio ratio rest
  | (_, none) :: rest => gearOfRatio ratio rest

/-- The gear table with its gear numbers. -/
def numberedGears (g : Six (Option GearEntry)) : List (Gear × Option GearEntry) :=
  [(1, g.e1), (2, g.e2), (3, g.e3), (4, g.e4), (5, g.e5), (6, g.e6)]

/-- The candidate gear of a tally (R38). -/
def candidateGear (s : State) : Gear :=
  if s.inputs.out.speed < s.config.armed.shift.oMinimum then 0
  else if s.inputs.rvs.level then 7
  else gearOfRatio (s.inputs.inp.speed * 1000 / s.inputs.out.speed) (numberedGears s.config.armed.gears)

/-- The tallies in a row that confirm a gear (R39). -/
def ShiftSettings.tallies (c : ShiftSettings) : Nat := ceilDiv c.confirmMs 100

/-- An engagement of a gear: counted, and charged under the SHIFT law (R39, R70). -/
def engageGear (g : Gear) (s : State) : State :=
  chargeShift g
    ((onMeters (fun m => { m with gearEngagements := m.gearEngagements.modify g fun n => satAdd n 1 }) s).count
      fun c => { c with gearEngagements := satAdd c.gearEngagements 1 })

/-- The gear tracker's work at a tally (R38, R39). -/
def trackGear (s : State) : State :=
  let c := candidateGear s
  let run := if c = s.duty.heldGear then min (s.duty.runCount + 1) 30 else 1
  let held := { s with duty.heldGear := c, duty.runCount := run }
  if s.config.armed.shift.tallies ≤ run ∧ s.duty.gear ≠ c then
    let confirmed := { held with duty.gear := c }
    if c = 0 then confirmed else engageGear c confirmed
  else held

/-- The plain meters and the open hire's counters at a tally (R45). -/
def tallyMeters (drained : Nat) (s : State) : State :=
  let run := if s.duty.engine.turning then 1 else 0
  let ign := if s.inputs.ign.level then 1 else 0
  (onMeters (fun m =>
      { m with
        runTallies := satAdd m.runTallies run, ignitionTallies := satAdd m.ignitionTallies ign,
        outputRevolutions := satAdd m.outputRevolutions drained }) s).count
    fun c =>
      { c with runTallies := satAdd c.runTallies run, outputRevolutions := satAdd c.outputRevolutions drained }

/-! ## Declared condition (section 2.4) -/

/-- The freshness timer has run down while the coolant is FRESH (R42). -/
def freshnessDue (s : State) : Bool := s.duty.fresh && s.duty.freshTimer == 0

/-- The freshness becomes STALE, which raises CONDITION_STALE; the stored value is kept (R42). -/
def goStale (s : State) : State :=
  if s.duty.fresh then raise .conditionStale .none { s with duty.fresh := false, duty.freshTimer := 0 } else s

/-- The expiry of the freshness timer, if it is due (R42). -/
def takeFreshnessExpiry (s : State) : State := if freshnessDue s then goStale s else s

/-- A declaration (R41). -/
def declare (load : LoadState) (coolant : Option Int) (s : State) : State :=
  match coolant with
  | some t =>
    { s with
      duty.load := load, duty.coolant := some (clampInt (-40) 150 t), duty.fresh := true, duty.freshTimer := 2500 }
  | none => goStale { s with duty.load := load }

end Sys2Proof.Machine
end

