-- ==== Sys2Proof/Machine/Channels.lean ====
section
/-! DEFINITION. The pulse channels (section 1.1) and the battery input (section 1.3): edges, stalls, speeds, output-shaft
revolutions. -/

namespace Sys2Proof.Machine

open Sys2Proof

/-- The top of the elapsed time and of a period, in µs (R1). -/
def elapsedTop : Nat := 16777215

/-- The active edges per revolution (R6). -/
def ChannelSettings.ep (c : ChannelSettings) : Nat :=
  match c.edge with
  | .rising | .falling => c.ppr
  | .both => 2 * c.ppr

/-- The speed of a period (R6). -/
def ChannelSettings.speedOf (c : ChannelSettings) (period : Nat) : Nat := min (60000000 / (period * c.ep)) 12000

/-- The stall time in µs. -/
def ChannelSettings.stallUs (c : ChannelSettings) : Nat := c.stallMs * 1000

/-- The transition is an edge for the channel (R2). -/
def ChannelSettings.sees (c : ChannelSettings) (t : Transition) : Bool :=
  match c.edge, t with
  | .rising, .rising => true
  | .falling, .falling => true
  | .both, _ => true
  | _, _ => false

/-- The elapsed time of a channel at an instant of the capture timer (R1); not defined without a last accepted
edge. -/
def Channel.elapsed (now : Nat) (c : Channel) : Option Nat := c.lastEdge.map fun e => min (now - e) elapsedTop

/-- The minimum-interval test (R3); an edge without an earlier accepted one passes. -/
def Channel.accepts (cfg : ChannelSettings) (now : Nat) (c : Channel) : Bool :=
  match c.elapsed now with
  | none => true
  | some t => decide (cfg.minInterval ≤ t)

/-- The channel after an accepted edge (R4): STALLED to STARTING without a period; otherwise the elapsed time, at least
1 µs, becomes the period. -/
def Channel.edge (cfg : ChannelSettings) (now : Nat) (c : Channel) : Channel :=
  match c.st, c.elapsed now with
  | .starting, some t => ⟨.turning, some now, some (max 1 t), cfg.speedOf (max 1 t)⟩
  | .turning, some t => ⟨.turning, some now, some (max 1 t), cfg.speedOf (max 1 t)⟩
  | _, _ => ⟨.starting, some now, none, 0⟩

/-- The channel after a stall (R5). -/
def Channel.stall (c : Channel) : Channel := ⟨.stalled, c.lastEdge, none, 0⟩

/-- The elapsed time beyond the stall time, of a channel that is not stalled; none before the stall time (R5). -/
def Channel.stallAge (cfg : ChannelSettings) (now : Nat) (c : Channel) : Option Nat :=
  if c.st = .stalled then none
  else
    match c.elapsed now with
    | none => none
    | some t => if cfg.stallUs ≤ t then some (t - cfg.stallUs) else none

/-- A channel's new state, with the speed change event when its speed has taken another value (R6). -/
def putChannel (sh : Shaft) (v : Channel) (clutchFirst : Bool) (s : State) : State :=
  let put := { s with inputs := s.inputs.setChannel sh v }
  if (s.inputs.channel sh).speed = v.speed then put else speedChanged sh clutchFirst put

/-- The stall of a channel whose elapsed time has reached its stall time (R5); nothing otherwise. -/
def takeStall (sh : Shaft) (clutchFirst : Bool) (s : State) : State :=
  let c := s.inputs.channel sh
  match c.stallAge (s.config.armed.channel sh) s.inputs.captureUs with
  | none => s
  | some _ => if s.sensing then putChannel sh c.stall clutchFirst s else s

/-- The channel whose stall is longest overdue, if any stall is. Of stalls equally long overdue, which R5 and R35 leave in
either order, ENG is taken before INP and INP before OUT: DESIGN CHOICE (log 38). -/
def mostOverdue (s : State) : Option Shaft :=
  let age := fun sh => ((s.inputs.channel sh).stallAge (s.config.armed.channel sh) s.inputs.captureUs).getD 0
  let e := age .eng
  let i := age .inp
  let o := age .out
  if e = 0 ∧ i = 0 ∧ o = 0 then none
  else if i ≤ e ∧ o ≤ e then some .eng
  else if o ≤ i then some .inp
  else some .out

/-- The stall longest overdue, if any stall is. -/
def takeOverdueStall (s : State) : State :=
  match mostOverdue s with
  | none => s
  | some sh => takeStall sh false s

/-- An active edge counted towards a revolution of the output shaft (R7). -/
def countRevolution (i : Inputs) (ep : Nat) : Inputs :=
  if i.outRemainder + 1 ≥ ep then { i with outRemainder := 0, outPending := min (i.outPending + 1) 16777215 }
  else { i with outRemainder := i.outRemainder + 1 }

/-- The OUT drain of a tally (R8): the drained count. -/
def State.drain (s : State) : Nat := min s.inputs.outPending 600

/-- The pending revolutions after the drain (R8). -/
def drainOut (s : State) : State := { s with inputs.outPending := s.inputs.outPending - s.drain }

/-- The channels and lines at the entry to SLEEP (R9, R14): ENG and INP lose their last accepted edge. The speed change
events of these stalls move nothing, the engine being in OFF: DEDUCED (log 26). A level change that a sample has made
due and that has not been taken is dropped with its count, the level staying as it is: DESIGN CHOICE (log 30). -/
def sleepInputs (i : Inputs) : Inputs :=
  let calm := fun (l : Line) => { l with count := 0, changeDue := false }
  { i with
    eng := channelAtRest, inp := channelAtRest, out := i.out.stall,
    ign := calm i.ign, crk := calm i.crk, clu := calm i.clu, rvs := calm i.rvs }

/-- The sample of the VBAT pin, given in µV: times 30, in whole mV, clamped (R15). A product that is no whole number
of mV is rounded to one side or the other, which is free (log 5). -/
def vbatSample (pinMicroVolts : Nat) : Nat :=
  let product := pinMicroVolts * 30
  let up := if product % 1000 = 0 then 0 else if Config.vbatRoundsUp pinMicroVolts then 1 else 0
  min (product / 1000 + up) 32767

/-- ARM's effect on the channels whose items it changed (R10): a remainder at or above the new ep is lost. -/
def rearmOut (old new : ChannelSettings) (i : Inputs) : Inputs :=
  if old ≠ new ∧ new.ep ≤ i.outRemainder then { i with outRemainder := 0 } else i

end Sys2Proof.Machine
end

