-- ==== Sys2Proof/Machine/Power.lean ====
section
/-! DEFINITION. Power control (chapter 9): the doze timer, sleep pending and its cancellation, entry to SLEEP, wake, and
the stop of the part. -/

namespace Sys2Proof.Machine

open Sys2Proof

/-- The doze timer loaded in DOZE (R155). -/
def loadDoze (s : State) : State :=
  { s with clock.doze := some (s.config.armed.timing.dozeS * 250), clock.dozeDue := false }

/-- The doze timer loaded again at one of the events of R155 taken in DOZE. -/
def reloadDoze (s : State) : State := if s.clock.power = .doze then loadDoze s else s

/-- A SLEEP reply whose sleep pending is cancelled (R157). -/
def AfterReply.cancelled : AfterReply → AfterReply
  | .sleepLive | .sleepReplaced => .sleepCancelled
  | a => a

/-- A SLEEP reply whose sleep pending is replaced by that of a later SLEEP. -/
def AfterReply.replaced : AfterReply → AfterReply
  | .sleepLive => .sleepReplaced
  | a => a

/-- What follows the replies still held, each changed by a function. -/
def Link.mapAfter (f : AfterReply → AfterReply) (l : Link) : Link :=
  { l with
    deferred := l.deferred.map fun d => { d with after := f d.after },
    ready := l.ready.map fun r => { r with after := f r.after },
    tx := l.tx.map fun t => match t.source with
      | .reply a => { t with source := .reply (f a) }
      | _ => t }

/-- The cancellation of a sleep pending (R157); in DOZE it reloads the doze timer. -/
def cancelSleep (s : State) : State :=
  if s.clock.sleep.isSome then
    reloadDoze { s with clock.sleep := none, link := s.link.mapAfter AfterReply.cancelled }
  else s

/-- An IGN or CRK pin stands at its active level. -/
def State.pinActive (s : State) (l : SwitchLine) : Bool :=
  corrected (s.config.armed.line l).polarity (s.inputs.line l).pinHigh

/-- Entry to SLEEP (R158). A pin of IGN or CRK that already stands at its active level is a wake source at once. -/
def enterSleep (s : State) : State :=
  { s with
    clock.power := .sleep, clock.sleep := none, clock.doze := none, clock.dozeDue := false,
    clock.tallyDue := false, clock.secondStep := false, clock.lampCheck := none,
    clock.waking := s.pinActive .ign || s.pinActive .crk,
    inputs := sleepInputs s.inputs,
    duty.heldGear := 0, duty.runCount := 0, duty.gear := 0,
    table.lamp1 := lampDark, table.lamp2 := lampDark,
    link.stream := none, link.report := none, link.rx := [] }

/-- The entry test of a sleep pending that is ready (R157): SLEEP, a further test at the next completion, or the
cancellation. -/
def sleepTest (s : State) : State :=
  match s.clock.sleep with
  | some p =>
    if p.stage = .ready then
      if s.sleepConditions && s.link.queue.isEmpty then
        if s.store.commit = .idle then enterSleep s else s
      else cancelSleep s
    else s
  | none => s

/-- The contents of the areas when the part stops: the area of a commit in flight holds no valid image (R160, R173). -/
def Store.areasAtStop (st : Store) : Four AreaContents :=
  match st.commit with
  | .idle => st.areas
  | .inFlight f | .inFlightPending f => st.areas.set f.area .unreadable

/-- The part stopped (R160): every working value not retained is lost, and the retained state with it until a restore
brings it back. The image areas keep what they hold; pins and waiting commands are outside the part. -/
def stopped (power : Power) (s : State) : State :=
  { State.reset with
    clock := { State.reset.clock with
      supplyOn := s.clock.supplyOn, resetnHigh := s.clock.resetnHigh, power := power },
    store := { State.reset.store with areas := s.store.areasAtStop },
    freePicks := s.freePicks, pending := s.pending }

end Sys2Proof.Machine
end

