-- ==== Sys2Proof/Machine/Commits.lean ====
section
/-! DEFINITION. The Retention Store (chapter 10): snapshots, asks, the start and completion of commits, what each
completion releases, the choice of the newest image, restore and blank start. -/

namespace Sys2Proof.Machine

open Sys2Proof

/-- The check computed over the bytes of an image before its check word (R164). The layout of these bytes is free
(log 7). -/
def ImageFields.checkWord (i : ImageFields) : Nat := crc16 (Config.imageBytes i)

/-- An image whose check word is the one computed (R164). -/
def ImageFields.sealed (i : ImageFields) : Image := { i with check := i.checkWord }

/-- An image read from an area is valid when its check word equals the check computed (R164). -/
def Image.valid (i : Image) : Bool := i.check == i.toImageFields.checkWord

/-- The retained state as it stands (R164), under a sequence number. -/
def State.retained (s : State) (sequence : Nat) : ImageFields where
  sequence := sequence
  time := s.clock.time
  armed := s.config.armed
  generation := s.config.generation
  slots := s.table.slots
  idle := s.hires.idle
  settled := s.hires.settled
  openHire := s.hires.current
  history := s.hires.history
  released := s.hires.released
  nextHire := s.hires.next
  nextAttempt := s.starts.next
  startLog := s.starts.log
  lifeStarts := s.starts.life
  meters := s.duty.meters
  outPending := s.inputs.outPending
  faultSeen := s.store.faultSeen

/-- The snapshot of a commit (R167): the image of the retained state with its check word. -/
def State.snapshot (s : State) (sequence : Nat) : Image := (s.retained sequence).sealed

/-- The area after another, counting 0, 1, 2, 3 and back to 0. -/
def areaAfter : Area → Area
  | 0 => 1
  | 1 => 2
  | 2 => 3
  | 3 => 0

/-- The first usable area that follows the last written one, or from area 0 when none has been written (R165). -/
def Store.nextArea (st : Store) : Option Area :=
  let first := match st.lastArea with
    | some a => areaAfter a
    | none => 0
  let second := areaAfter first
  let third := areaAfter second
  [first, second, third, areaAfter third].find? fun a => st.usable.get a

/-- Some area is usable. -/
def Store.anyUsable (st : Store) : Bool := st.usable.toList.any id

/-- The sequence number after another (R165). -/
def nextSequence (n : Nat) : Nat := (n + 1) % 4294967296

/-- The replies and the sleep pending that wait for the next commit wait for the one that now starts (R169). -/
def bindNext (s : State) : State :=
  { s with
    link.deferred := s.link.deferred.map fun d => { d with bound := .current },
    clock.sleep := s.clock.sleep.map fun p =>
      match p.stage with
      | .commit _ => { p with stage := .commit .current }
      | _ => p }

/-- The fields of a deferred reply at its release (R156, R168). `written`: the sequence number and area of the commit,
absent where no area was usable. -/
def Deferred.fields (written : Option (Nat × Area)) (d : Deferred) : List Field :=
  match d.form with
  | .kept fs => fs
  | .checkpoint => [.opt 4 (written.map (·.1)), .opt 1 (written.map (·.2.val))]
  | .sleepOutcome => [.num 1 (if d.after = .sleepCancelled then 1 else 0)]

/-- A deferred reply released by its commit (R169), at an instant. -/
def Deferred.release (ok : Bool) (written : Option (Nat × Area)) (instant : Nat) (d : Deferred) : Reply where
  kind := d.kind
  tag := d.tag
  code := if ok then .done else .doneNotRetained
  takenAt := d.takenAt
  fields := d.fields written
  after := d.after
  readyAt := instant
  order := d.order

/-- A completion reaches the replies bound to it: they become ready at this instant (R169, R184). -/
def releaseReplies (ok : Bool) (written : Option (Nat × Area)) (s : State) : State :=
  { s with
    link.ready := s.link.ready ++
      (s.link.deferred.filter (·.bound = .current)).map (Deferred.release ok written s.inputs.captureUs),
    link.deferred := s.link.deferred.filter (·.bound ≠ .current) }

/-- A sleep pending after the completion it waits for: ready, or waiting for its reply to leave TX (R157). -/
def SleepPending.completed (p : SleepPending) : SleepPending :=
  if p.stage = .commit .current then
    { p with stage := match p.origin with
      | .dozeExpiry => .ready
      | .request => .reply }
  else p

/-- A completion reaches the blocks that wait on commits (R168): the replies, the secured mark, the sleep pending, the
transmission hold. `nextHire` is the next hire number of a verified snapshot; `afterHold` whether the commit started at
or after the setting of the hold. -/
def completionReaches (ok : Bool) (written : Option (Nat × Area)) (nextHire : Option Nat) (afterHold : Bool)
    (s : State) : State :=
  let r := releaseReplies ok written s
  { r with
    hires.secured := nextHire.getD r.hires.secured,
    clock.sleep := r.clock.sleep.map SleepPending.completed,
    clock.hold := r.clock.hold && !(ok && afterHold) && (ok || r.store.anyUsable) }

/-- A commit starts (R167): its snapshot, area and sequence number; or, with no usable area, it completes as FAILED at
once and writes nothing (R171). It serves the transmission hold (R162) if the hold is set when it starts; one that an
earlier event of the instant at which the hold is set has started does not: DESIGN CHOICE (log 45). -/
def beginCommit (s : State) : State :=
  let started := { s with store.lastStart := some s.clock.time }
  match s.store.nextArea with
  | some a =>
    let n := nextSequence s.store.lastSequence
    { started with
      store.lastArea := some a, store.lastSequence := n,
      store.commit := .inFlight ⟨a, s.snapshot n, s.clock.hold⟩ }
  | none => sleepTest (completionReaches false none none s.clock.hold { started with store.commit := .idle })

/-- An ask for a commit (R166). -/
def askCommit (s : State) : State :=
  match s.store.commit with
  | .idle => beginCommit s
  | .inFlight f => { s with store.commit := .inFlightPending f }
  | .inFlightPending _ => s

/-- The commit that will hold the effect of a request taken now (R169). -/
def State.boundNow (s : State) : Bound :=
  match s.store.commit with
  | .idle => .current
  | _ => .next

/-- The failure handling of a mismatch (R171): the area becomes unusable, the fault seen mark is set,
RETENTION_FAULT is raised. -/
def commitFailed (f : Flight) (left : FailedArea) (s : State) : State :=
  raise .retentionFault (.index f.area.val)
    { s with
      store.usable := s.store.usable.set f.area false, store.faultSeen := true,
      store.areas := match left with
        | .noValidImage => s.store.areas.set f.area .unreadable
        | .imageBefore => s.store.areas }

/-- The write and verify of the commit in flight end (R167): VERIFIED stores the image; FAILED is handled by R171. The
completion then reaches the waiting blocks, the pending commit or the one the hold asks for starts (R162), and a ready
sleep pending is tested (R157). A failure under the hold with a commit pending: the hold's ask joins the pending one,
so one commit starts and none stays pending behind it. A failure that leaves no usable area clears the hold and asks for
no further commit. Both are DESIGN CHOICE (log 35). -/
def completeCommit (f : Flight) (wasPending : Bool) (result : CommitResult) (s : State) : State :=
  let written := some (f.image.sequence, f.area)
  let reached := match result with
    | .verified =>
      completionReaches true written (some f.image.nextHire) f.afterHold
        { s with store.areas := s.store.areas.set f.area (.image f.image), store.commit := .idle }
    | .failed left =>
      completionReaches false written none f.afterHold
        { commitFailed f left s with store.commit := .idle }
  let again := wasPending || (reached.clock.hold && result != .verified)
  sleepTest (if again then beginCommit (bindNext reached) else reached)

/-- The completion of the commit in flight, if one is (R168). -/
def takeCompletion (result : CommitResult) (s : State) : State :=
  match s.store.commit with
  | .idle => s
  | .inFlight f => completeCommit f false result s
  | .inFlightPending f => completeCommit f true result s

/-- The checkpoint comparison at a step of the seconds count (R170). -/
def takeCheckpointTest (s : State) : State :=
  if s.clock.secondStep then
    let tested := { s with clock.secondStep := false }
    if s.checkpointPassed then askCommit tested else tested
  else s

/-- The expiry of the doze timer, if it is due (R155). A sleep that it sets pending, or finds pending, holds the timer. A
commit that an earlier event of the same instant has started is not taken as one whose snapshot is at or after that
instant (R157); the sleep waits for the next one: DESIGN CHOICE (log 46). -/
def takeDozeExpiry (s : State) : State :=
  if s.clock.dozeDue then
    let taken := { s with clock.dozeDue := false }
    if s.sleepConditions then
      match s.clock.sleep with
      | none => askCommit { taken with clock.sleep := some ⟨.dozeExpiry, .commit s.boundNow, true, true⟩ }
      | some p => { taken with clock.sleep := some { p with timerHeld := true } }
    else reloadDoze taken
  else s

/-! ## Restore (section 10.4) -/

/-- Image x is newer than image y across the wrap of the sequence numbers (R174). -/
def Image.newer (x y : Image) : Bool :=
  let d := (x.sequence + 4294967296 - y.sequence) % 4294967296
  decide (1 ≤ d ∧ d ≤ 2147483647)

/-- The valid images with their areas, lowest area first. -/
def validImages (areas : Four AreaContents) : List (Area × Image) :=
  ([0, 1, 2, 3] : List Area).filterMap fun a =>
    match areas.get a with
    | .unreadable => none
    | .image i => if i.valid then some (a, i) else none

/-- The newest image: the first, by area, that no other is newer than (R174). Sequence numbers of which each has a newer
one cannot arise from successive commits; the lowest area is then taken (log 9). -/
def newestImage (areas : Four AreaContents) : Option (Area × Image) :=
  let vs := validImages areas
  match vs.find? fun x => vs.all fun y => !y.2.newer x.2 with
  | some x => some x
  | none => vs.head?

/-- The retained state of an image in the working state (R174, R161). -/
def restoreImage (a : Area) (i : Image) (s : State) : State :=
  { s with
    inputs.outPending := i.outPending,
    duty.meters := i.meters,
    starts := { attempt := none, life := i.lifeStarts, log := i.startLog, next := i.nextAttempt },
    table.slots := i.slots,
    hires :=
      { current := i.openHire, idle := i.idle, settled := i.settled, history := i.history, released := i.released,
        next := i.nextHire, secured := i.nextHire },
    config := { armed := i.armed, staging := none, generation := i.generation },
    clock.time := ⟨min (i.time.seconds + i.armed.timing.checkpointS + 1) top32, i.time.ticks⟩,
    clock.phase := i.time.ticks % 25,
    clock.outcome := if i.faultSeen then .imageAfterFault else .image,
    store :=
      { areas := s.store.areas, usable := Four.all true, lastArea := some a, lastSequence := i.sequence,
        lastStart := some i.time, commit := .idle, faultSeen := i.faultSeen } }

/-- The end of the restore step (R174, R175, R176, R180): the newest image or a blank start, under the values that every
start-up leaves; BAUDSEL is read; the settle step begins. -/
def endRestore (baudselHigh : Bool) (s : State) : State :=
  let blank := stopped .settle s
  let restored := match newestImage s.store.areas with
    | some (a, i) => restoreImage a i blank
    | none => blank
  { restored with link.baudselHigh := baudselHigh }

end Sys2Proof.Machine
end

