-- ==== Sys2Proof/Machine/HireUnit.lean ====
section
/-! DEFINITION. The Hire Unit's accounts and the history (chapters 6 and 7): the class decision, the close of a hire, the
append with its merge, the auto-close, the releases, the law of conservation. -/

namespace Sys2Proof.Machine

open Sys2Proof

/-- The top bits of two 32-bit key ids are equal (R107). -/
def prefixEqual (bits a b : Nat) : Bool := a / 2 ^ (32 - bits) == b / 2 ^ (32 - bits)

/-- An entry of the key-class table matches a key id (R107). -/
def KeyClass.hits (k : KeyClass) (key : Nat) : Bool :=
  k.enabled && (prefixEqual k.prefixLength key k.base ||
    match k.alternate with
    | some b => prefixEqual k.prefixLength key b
    | none => false)

/-- The class of a new hire (R107). -/
def decideClass (c : Settings) (key : Nat) : HireClass :=
  match c.policy.forced with
  | some f => f
  | none =>
    match c.keys.toList.find? (·.hits key) with
    | some k => k.cls
    | none => .customer

/-- The policy closes a hire of this class at ignition off (R112). -/
def HirePolicy.closes (p : HirePolicy) : HireClass → Bool
  | .customer => p.closeCustomer
  | .staff => p.closeStaff
  | .workshop => p.closeWorkshop

/-- The summary that a close forms from the open hire (R111). -/
def summaryOf (h : HireRecord) (cause : CloseCause) (t : MeterTime) : Summary where
  first := h.number
  last := h.number
  keyId := h.keyId
  cls := .one h.cls
  generation := h.generation
  openTime := h.openTime
  closeTime := t
  cause := cause
  merged := 1
  main := h.main
  recovery := h.recovery
  counters := h.counters

/-- Counters added, each stopping at its top (R127). -/
def HireCounters.add (a b : HireCounters) : HireCounters where
  runTallies := satAdd a.runTallies b.runTallies
  starts :=
    { coldOk := satAdd a.starts.coldOk b.starts.coldOk, warmOk := satAdd a.starts.warmOk b.starts.warmOk,
      failed := satAdd a.starts.failed b.starts.failed, reEngage := satAdd a.starts.reEngage b.starts.reEngage,
      push := satAdd a.starts.push b.starts.push }
  stalls := satAdd a.stalls b.stalls
  clutchEngagements := satAdd a.clutchEngagements b.clutchEngagements
  gearEngagements := satAdd a.gearEngagements b.gearEngagements
  outputRevolutions := satAdd a.outputRevolutions b.outputRevolutions

/-- Recovery deltas added, an absent part counting as 0 (R127). -/
def addRecovery : Option (Eight Nat) → Option (Eight Nat) → Option (Eight Nat)
  | none, none => none
  | a, b => some (Eight.zip (· + ·) (a.getD zeroAccounts) (b.getD zeroAccounts))

/-- The merged summary of an older and a younger one (R127). -/
def mergeSummaries (a b : Summary) : Summary where
  first := a.first
  last := b.last
  keyId := if a.keyId = b.keyId then a.keyId else 0
  cls := if a.cls = b.cls then a.cls else .mixed
  generation := if a.generation = b.generation then a.generation else 65535
  openTime := a.openTime
  closeTime := b.closeTime
  cause := b.cause
  merged := a.merged + b.merged
  main := Eight.zip (· + ·) a.main b.main
  recovery := addRecovery a.recovery b.recovery
  counters := a.counters.add b.counters

/-- The index of the first adjacent pair that passes a test (R126). -/
def firstPair (p : Summary → Summary → Bool) : List Summary → Option Nat
  | a :: b :: rest => if p a b then some 0 else (firstPair p (b :: rest)).map (· + 1)
  | _ => none

/-- The first step of R126: equal classes, not CUSTOMER. -/
def sameStaffKind (a b : Summary) : Bool := a.cls == b.cls && a.cls != .one .customer

/-- The second step of R126: two CUSTOMER summaries of one key id. -/
def sameCustomer (a b : Summary) : Bool :=
  a.cls == .one .customer && b.cls == .one .customer && a.keyId == b.keyId

/-- The index of the pair to merge (R126). -/
def pairToMerge (h : List Summary) : Nat :=
  match firstPair sameStaffKind h with
  | some i => i
  | none => (firstPair sameCustomer h).getD 0

/-- The list with the pair at an index merged, and the merged summary (R127). -/
def mergeAt : Nat → List Summary → Option (Summary × List Summary)
  | 0, a :: b :: rest => some (mergeSummaries a b, mergeSummaries a b :: rest)
  | n + 1, a :: rest => (mergeAt n rest).map fun r => (r.1, a :: r.2)
  | _, _ => none

/-- The capacity of the history (R122). -/
def historyMax : Nat := 32

/-- A summary appended to the history (R125): a full history first merges a pair, which raises HISTORY_MERGED; the
24th entry raises HISTORY_NEAR_FULL. -/
def appendSummary (m : Summary) (s : State) : State :=
  if s.hires.history.length < historyMax then
    let appended := { s with hires.history := s.hires.history ++ [m] }
    if s.hires.history.length = 23 then raise .historyNearFull (.hire (some m.last)) appended else appended
  else
    match mergeAt (pairToMerge s.hires.history) s.hires.history with
    | some (merged, rest) =>
      raise .historyMerged (.hire (some merged.first)) { s with hires.history := rest ++ [m] }
    | none => { s with hires.history := s.hires.history ++ [m] }

/-- The close of the open hire (R111): its summary joins the history and the record becomes absent. -/
def closeOpenHire (cause : CloseCause) (s : State) : State :=
  match s.hires.current with
  | none => s
  | some h =>
    let appended := appendSummary (summaryOf h cause s.clock.time) s
    { appended with hires.current := none }

/-- IGN becoming inactive reaches the Hire Unit: the auto-close (R112). -/
def autoClose (s : State) : State :=
  match s.hires.current with
  | none => s
  | some h =>
    if s.config.armed.policy.closes h.cls then
      askCommit (raise .hireAutoClosed (.hire (some h.number)) (closeOpenHire .ignitionOff s))
    else s

/-- The record of a hire at its opening (R106). -/
def newHire (key : Nat) (s : State) : HireRecord where
  number := s.hires.next
  keyId := key
  cls := decideClass s.config.armed key
  generation := s.config.generation
  openTime := s.clock.time
  suspended := false
  main := zeroAccounts
  recovery := none
  counters := zeroCounters

/-- The opening of a hire, superseding an open one (R106). -/
def openNewHire (key : Nat) (s : State) : State :=
  let closed := closeOpenHire .superseded s
  { closed with hires.current := some (newHire key closed), hires.next := nextNumber closed.hires.next }

/-- The open hire SUSPENDED, its recovery deltas created if absent (R108), or ACTIVE again (R109). -/
def setSuspended (b : Bool) (s : State) : State :=
  { s with hires.current := s.hires.current.map fun h =>
      { h with suspended := b, recovery := if b then some (h.recovery.getD zeroAccounts) else h.recovery } }

/-- The wear a summary holds, per slot: main and recovery. -/
def Summary.wear (m : Summary) : Eight Nat := Eight.zip (· + ·) m.main (m.recovery.getD zeroAccounts)

/-- The wear of the open hire, per slot. -/
def HireRecord.wear (h : HireRecord) : Eight Nat := Eight.zip (· + ·) h.main (h.recovery.getD zeroAccounts)

/-- The wear that summaries hold together, per slot. -/
def wearOf (ms : List Summary) : Eight Nat :=
  ms.foldr (fun m acc => Eight.zip (· + ·) m.wear acc) zeroAccounts

/-- The summaries at the front that RELEASE_HISTORY through hire n removes (R131). -/
def releasable (n : Nat) (h : List Summary) : List Summary := h.takeWhile fun m => m.last ≤ n

/-- The removal of RELEASE_HISTORY (R131): the wear of the removed summaries moves into the settled totals. -/
def releaseThrough (n : Nat) (h : Hires) : Hires :=
  let out := releasable n h.history
  match out.getLast? with
  | none => h
  | some newest =>
    { h with
      history := h.history.drop out.length, released := newest.last,
      settled := Eight.zip (· + ·) h.settled (wearOf out) }

/-- RELEASE_IDLE on the accounts (R118). -/
def releasePool (h : Hires) : Hires :=
  { h with settled := Eight.zip (· + ·) h.settled h.idle, idle := zeroAccounts }

/-- CLEAR_ACCOUNTING on the Hire Unit (R148): the numbering stands. -/
def clearHires (h : Hires) : Hires :=
  { h with idle := zeroAccounts, settled := zeroAccounts, history := [], released := h.next - 1 }

end Sys2Proof.Machine
end

