-- ==== Sys2Proof/Machine/LinkOps.lean ====
section
/-! DEFINITION. The Control Link's shared operations (chapter 11): taking a request, its reply at once or deferred, the
stream, frames received, the transmit arbiter. -/

namespace Sys2Proof.Machine

open Sys2Proof

/-- The entries of the reply buffer in use: deferred, ready, and the reply in transmission (R178). -/
def Link.entries (l : Link) : Nat :=
  l.deferred.length + l.ready.length +
    match l.tx with
    | some ⟨.reply _, _⟩ => 1
    | _ => 0

/-- The frame at the head of the queue can be taken (R178): a free entry, awake, no RESTART taken. -/
def State.canTake (s : State) : Bool := s.awake && !s.link.restartTaken && decide (s.link.entries < 4)

/-! ## Replies (R178, R179) -/

/-- A reply ready at the instant its request is taken. -/
def answer (f : Frame) (code : ReplyCode) (fields : List Field) (s : State) : State :=
  { s with
    link.ready := s.link.ready ++
      [⟨f.kind, f.tag, code, s.clock.time, fields, .nothing, s.inputs.captureUs, s.link.taken⟩],
    link.taken := s.link.taken + 1 }

/-- A request answered DONE at once. -/
def answerDone (f : Frame) (fields : List Field) (s : State) : State := answer f .done fields s

/-- A refusal: it carries the outcome and the taken-at time and nothing more, and the request changes nothing. -/
def refuse (f : Frame) (code : ReplyCode) (s : State) : State := answer f code [] s

/-- A reply deferred to the commit that will hold the request's effect, and the ask for a commit (R105, R169). -/
def deferReply (f : Frame) (form : DeferredForm) (after : AfterReply) (s : State) : State :=
  askCommit
    { s with
      link.deferred := s.link.deferred ++ [⟨f.kind, f.tag, s.clock.time, form, after, s.boundNow, s.link.taken⟩],
      link.taken := s.link.taken + 1 }

/-! ## The transmit arbiter (R184) -/

/-- The frame of a reply: outcome, taken-at time and fields, hire numbers judged against the secured mark. -/
def replyFrame (secured : Nat) (r : Reply) : Frame :=
  ⟨r.kind + 0x80, r.tag, encodeFields secured (.num 1 r.code.code :: .time r.takenAt :: r.fields)⟩

/-- The frame of a notice (section 11.7.2). -/
def noticeFrame (secured : Nat) (f : Flag) (r : Raised) : Frame := ⟨0x60, 0, encodeFields secured (noticeFields f r)⟩

/-- The frame of a stream report (section 11.7.2). -/
def reportFrame (secured : Nat) (fs : List Field) : Frame := ⟨0x61, 0, encodeFields secured fs⟩

/-- The pending notice with the lowest flag number, with what its raise stored. -/
def FlagTable.firstNotice (t : FlagTable) : Option (Flag × Raised) :=
  allFlags.findSome? fun f =>
    if (t.get f).notice then (t.get f).set.map fun r => (f, r) else none

/-- A notice leaves the pending set; its flag stays set (R180). -/
def FlagTable.dropNotice (t : FlagTable) (f : Flag) : FlagTable := t.set f { t.get f with notice := false }

/-- A ready reply goes before another: it was released earlier, or at the same instant and its request was taken first
(R184). -/
def Reply.before (r q : Reply) : Bool :=
  decide (r.readyAt < q.readyAt ∨ r.readyAt = q.readyAt ∧ r.order < q.order)

/-- The ready reply that goes before every other (R184). -/
def firstReply : List Reply → Option Reply
  | [] => none
  | r :: rest =>
    match firstReply rest with
    | none => some r
    | some q => if q.before r then some q else some r

/-- The frame the arbiter picks and the link without it: the reply released earliest, and of those released at one
instant the one whose request was taken first; else the notice with the lowest flag number, else the report (R184). -/
def pickFrame (secured : Nat) (l : Link) : Link :=
  match firstReply l.ready with
  | some r => { l with ready := l.ready.erase r, tx := some ⟨.reply r.after, replyFrame secured r⟩ }
  | none =>
    match l.flags.firstNotice with
    | some (f, r) => { l with flags := l.flags.dropNotice f, tx := some ⟨.notice f, noticeFrame secured f r⟩ }
    | none =>
      match l.report with
      | some fs => { l with report := none, tx := some ⟨.report, reportFrame secured fs⟩ }
      | none => l

/-- The arbiter starts a frame when the line is free, the part awake and the transmission hold clear (R184, R162). It runs
after each event, also where several fall at one instant: DESIGN CHOICE (log 42). -/
def arbitrate (s : State) : State :=
  if s.link.tx.isNone && s.awake && !s.clock.hold then { s with link := pickFrame s.hires.secured s.link } else s

/-- A step that ends in a next state, the arbiter having started what it can. -/
def settled (s : State) : Host.Outcome State Fault Refusal := .next (arbitrate s)

/-! ## Taking a request (R178) -/

/-- The frame at the head of the queue is taken if it passes a test on its KIND and a frame can be taken: it leaves the
queue, and the request's work is done at that instant. Otherwise the step does not arise, and nothing changes
(log 1). -/
def takeHead (mine : Byte → Bool) (work : Frame → State → State) (s : State) : Host.Outcome State Fault Refusal :=
  match s.link.queue with
  | [] => .next s
  | f :: rest =>
    if mine f.kind && s.canTake then settled (work f { s with link.queue := rest }) else .next s

/-- The taking of a request of one KIND. -/
def takeKind (kind : Byte) (work : Frame → State → State) (s : State) : Host.Outcome State Fault Refusal :=
  takeHead (fun k => k == kind) work s

/-- A request that carries no payload: with one it is refused with REFUSED_LENGTH. -/
def noPayload (work : Frame → State → State) (f : Frame) (s : State) : State :=
  if f.payload.isEmpty then work f s else refuse f .refusedLength s

/-- A request whose payload is fields of given widths: with another length it is refused with REFUSED_LENGTH. -/
def withFields (widths : List Nat) (work : Frame → List Nat → State → State) (f : Frame) (s : State) : State :=
  match splitFields widths f.payload with
  | some vs => work f vs s
  | none => refuse f .refusedLength s

/-- A request that carries one value of a given width. -/
def oneField (w : Nat) (work : Frame → Nat → State → State) (f : Frame) (s : State) : State :=
  withFields [w] (fun g vs t => work g (vs.getD 0 0) t) f s

/-- A request that carries two values of given widths. -/
def twoFields (w v : Nat) (work : Frame → Nat → Nat → State → State) (f : Frame) (s : State) : State :=
  withFields [w, v] (fun g vs t => work g (vs.getD 0 0) (vs.getD 1 0) t) f s

/-- A request about one slot or one index of eight: above 7 it is refused with REFUSED_RANGE (R89, R90, R93). -/
def onSlot (n : Nat) (work : Frame → Slot → State → State) (f : Frame) (s : State) : State :=
  match eightIndex n with
  | some k => work f k s
  | none => refuse f .refusedRange s

/-! ## Reception (R177) -/

/-- A good frame at the instant its last byte is checked: it enters the queue, which cancels a sleep pending and reloads
the doze timer (R155, R157), or finds the queue full, is discarded and raises LINK_OVERRUN. -/
def enterFrame (f : Frame) (s : State) : State :=
  if s.link.queue.length < 4 then
    reloadDoze (cancelSleep { s with link.queue := s.link.queue ++ [f] })
  else raise .linkOverrun .none s

/-- Bytes on RX in SLEEP: the start edge of the first is a wake source, and all of them are discarded (R157, R159). A gap
alone brings no edge. -/
def receiveAsleep (items : List RxItem) (s : State) : State :=
  { s with clock.waking := s.clock.waking || items.any (· ≠ .gap) }

/-- The receiver takes items from RX, while the part is awake or settles (R177): the good frames they complete enter in
order. In SLEEP it watches for a start edge alone (R158). The bytes of one command arrive at one instant: DESIGN CHOICE
(log 13). -/
def receive (items : List RxItem) (s : State) : State :=
  if s.sensing then
    let all := s.link.rx ++ items
    let r := receiveAll (all.length + 1) all
    r.1.foldl (fun t f => enterFrame f t) { s with link.rx := r.2 }
  else receiveAsleep items s

/-! ## Streaming (R183) -/

/-- The stream at a tally: a report formed when its tally count reaches its period, and the end of a finite stream. -/
def streamTally (s : State) : State :=
  match s.link.stream with
  | none => s
  | some st =>
    if st.tallies + 1 < st.period then { s with link.stream := some { st with tallies := st.tallies + 1 } }
    else
      let formed := { s with link.report := some (reportFields s) }
      match st.left with
      | none => { formed with link.stream := some { st with tallies := 0 } }
      | some n =>
        if n ≤ 1 then raise .streamEnded .none { formed with link.stream := none }
        else { formed with link.stream := some { st with tallies := 0, left := some (n - 1) } }

end Sys2Proof.Machine
end

