-- ==== Sys2Proof/Machine/ClockOps.lean ====
section
/-! DEFINITION. What time brings (chapters 1 and 9): changes of switch lines, the tally, the tick step, and the taking of
the events that are due before time passes on. -/

namespace Sys2Proof.Machine

open Sys2Proof

/-! ## Switch lines (R12) -/

/-- The power state follows the debounced IGN level (R154); the change cancels a sleep pending (R157) and loads or
drops the doze timer (R155). -/
def powerIgnition (active : Bool) (s : State) : State :=
  let c := cancelSleep s
  if active then { c with clock.power := .run, clock.doze := none, clock.dozeDue := false }
  else loadDoze { c with clock.power := .doze }

/-- A change of the debounced CRK level in power control (R155, R157). -/
def powerCrank (s : State) : State := reloadDoze (cancelSleep s)

/-- IGN becomes inactive for the engine and for the Hire Unit, in either order (R62, R112). -/
def ignitionOff (hireFirst : Bool) (s : State) : State :=
  if hireFirst then engineIgnition false (autoClose s) else autoClose (engineIgnition false s)

/-- A change of the debounced IGN level reaches the reacting blocks (R12, R97). -/
def ignitionChanged (active hireFirst : Bool) (s : State) : State :=
  if active then startLampCheck (engineIgnition true (powerIgnition true s))
  else ignitionOff hireFirst (powerIgnition false s)

/-- A change of a debounced level reaches the blocks that react to the line (R12). -/
def levelReaches (l : SwitchLine) (active hireFirst : Bool) (s : State) : State :=
  match l with
  | .ign => ignitionChanged active hireFirst s
  | .crk => engineCrank active (powerCrank s)
  | .clu => clutchPedal active s
  | .rvs => s

/-- The change of a debounced level whose count has reached the debounce time, if it is due (R12). -/
def takeLevelChange (l : SwitchLine) (hireFirst : Bool) (s : State) : State :=
  let v := s.inputs.line l
  if v.changeDue && s.awake then
    levelReaches l (!v.level) hireFirst
      { s with inputs := s.inputs.setLine l { v with level := !v.level, count := 0, changeDue := false } }
  else s

/-- The debounce of one corrected sample (R12): a level change becomes due when the count reaches the debounce time. -/
def debounce (c : LineSettings) (pinHigh : Bool) (v : Line) : Line :=
  let sample := corrected c.polarity pinHigh
  if sample = v.level then { v with count := 0, changeDue := false, sample := some sample, pinHigh := pinHigh }
  else
    { v with
      count := v.count + 1, changeDue := decide (c.debounceMs ≤ v.count + 1), sample := some sample,
      pinHigh := pinHigh }

/-- A sample during the settle step: no debounce count runs (R18). -/
def settleSample (c : LineSettings) (pinHigh : Bool) (v : Line) : Line :=
  { v with sample := some (corrected c.polarity pinHigh), pinHigh := pinHigh }

/-- A line at the end of settle: its level is its last corrected sample (R18). -/
def Line.settle (v : Line) : Line := { v with level := v.sample.getD false, count := 0, changeDue := false }

/-! ## The tally (R153) -/

/-- The work of the blocks at a tally: the OUT drain (R8), the meters and counters (R45), the gear tracker (R38, R39),
the per-tally laws (R63) and the stream (R183), the last three in an order that the command gives. The run meter and the
HOUR charge read the engine state in this one step, so they always agree, where R65 lets a transition fall between the
two readings: DESIGN CHOICE (log 32). -/
def tallyWork (o : TallyOrder) (s : State) : State :=
  let n := s.drain
  let metered := tallyMeters n (drainOut s)
  let early := if o.reportFirst then streamTally metered else metered
  let tracked := if o.gearFirst then chargeTally n (trackGear early) else trackGear (chargeTally n early)
  if o.reportFirst then tracked else streamTally tracked

/-- The tally, if one is due (R153). -/
def takeTally (o : TallyOrder) (s : State) : State :=
  if s.clock.tallyDue then tallyWork o { s with clock.tallyDue := false } else s

/-! ## Due events -/

/-- An event that has not been commanded, if it is due: it is taken, and the arbiter starts what it then can (R184), as
after its command. -/
def catchUp (due : State → Bool) (take : State → State) (s : State) : State :=
  if due s then arbitrate (take s) else s

/-- The change of a line's debounced level is due. -/
def levelChangeDue (l : SwitchLine) (s : State) : Bool := (s.inputs.line l).changeDue && s.awake

/-- The events that can be due at an instant, in the order in which they are caught up: DESIGN CHOICE (log 10). A tally
among them is taken with the gear tracker first, then the Wear Calculator, and the stream report last. -/
def dueEvents : List ((State → Bool) × (State → State)) :=
  [(levelChangeDue .ign, takeLevelChange .ign false), (levelChangeDue .crk, takeLevelChange .crk false),
    (levelChangeDue .clu, takeLevelChange .clu false), (levelChangeDue .rvs, takeLevelChange .rvs false),
    (confirmDue, takeConfirmExpiry), (lockDue, takeLockExpiry), (freshnessDue, takeFreshnessExpiry),
    (fun s => s.clock.dozeDue, takeDozeExpiry), (fun s => s.clock.lampCheck == some 0, takeLampCheckEnd),
    (fun s => boundaryDue s.config.armed.lamp1 s.table.lamp1, takeLampBoundary .lamp1),
    (fun s => boundaryDue s.config.armed.lamp2 s.table.lamp2, takeLampBoundary .lamp2),
    (fun s => s.awake && s.clock.tallyDue, takeTally ⟨true, false⟩),
    (fun s => s.awake && s.clock.secondStep, takeCheckpointTest)]

/-- The events due at the present instant that have not been commanded are caught up before time passes on (log 10). -/
def takeDue (s : State) : State := dueEvents.foldl (fun t e => catchUp e.1 e.2 t) s

/-- The stall longest overdue, if any stall is, is caught up. -/
def catchStall (s : State) : State := catchUp (fun t => (mostOverdue t).isSome) takeOverdueStall s

/-- The present instant is over: a sleep pending is no longer one that the doze expiry has just set (R155). Two commands
fall at one instant when no time passes between them (log 11). -/
def instantOver (s : State) : State :=
  { s with clock.sleep := s.clock.sleep.map fun p => { p with justSet := false } }

/-- Time passes by a number of microseconds: the events due are taken first, and the stalls that fall within the span
as it ends, the longest overdue first (R5, log 10). The arbiter runs after each of them (R184, log 42). -/
def passTime (us : Nat) (s : State) : State :=
  if us = 0 ∨ !s.ticking then s
  else
    let d := takeDue s
    catchStall
      (catchStall
        (catchStall
          (instantOver { d with inputs.captureUs := d.inputs.captureUs + us, inputs.tickUs := d.inputs.tickUs + us })))

/-- Time passes to an instant within the tick, given in µs after the last tick step; an instant already passed is now
(log 11). -/
def passTo (us : Nat) (s : State) : State := passTime (min us 3999 - s.inputs.tickUs) s

/-! ## The tick step (R152) -/

/-- Meter time and the tally phase step (R152, R153); the seconds step while awake calls for the checkpoint comparison
(R170). -/
def stepMeterTime (s : State) : State :=
  let t := tickTime s.clock.time
  let wrap := decide (s.clock.phase ≥ 24)
  { s with
    clock.time := t, clock.phase := if wrap then 0 else s.clock.phase + 1,
    clock.tallyDue := s.clock.tallyDue || (wrap && s.awake),
    clock.secondStep := s.clock.secondStep || (s.awake && t.seconds != s.clock.time.seconds) }

/-- The doze timer does not run: a sleep is pending that a doze expiry has set or found (R155). -/
def State.dozeHeld (s : State) : Bool :=
  match s.clock.sleep with
  | some p => p.timerHeld
  | none => false

/-- The doze timer falls by one in DOZE, and its expiry becomes due at 0; it does not run while it is held, nor from 0
(R155). -/
def stepDoze (s : State) : State :=
  match s.clock.power, s.clock.doze with
  | .doze, some (n + 1) =>
    if s.dozeHeld then s else { s with clock.doze := some n, clock.dozeDue := decide (n = 0) }
  | _, _ => s

/-- The timers counted in ticks: confirm (R24), lock (R33), freshness (R42), lamp check (R97), blink phases (R96), the
crank of the open attempt (R49). They count before the events of the tick's instant, so a lamp that one of these events
moves to BLINK is left at phase 0, where R100 lets its tick come after: DESIGN CHOICE (log 40). -/
def stepTimers (s : State) : State :=
  { s with
    duty.confirmTimer := s.duty.confirmTimer.map (· + 1),
    duty.lockTimer := s.duty.lockTimer.map (· + 1),
    duty.freshTimer := s.duty.freshTimer - 1,
    clock.lampCheck := s.clock.lampCheck.map (· - 1),
    table.lamp1 := tickLamp s.config.armed.lamp1 s.table.lamp1,
    table.lamp2 := tickLamp s.config.armed.lamp2 s.table.lamp2,
    starts.attempt := s.starts.attempt.map Attempt.tick }

/-- The supply state after a sample (R16): an entry to WARNING raises SUPPLY_WARNING and asks for a commit. -/
def testSupply (v : Nat) (s : State) : State :=
  match s.inputs.supply with
  | .normal =>
    if v < 5500 then askCommit (raise .supplyWarning .none { s with inputs.supply := .warning }) else s
  | .warning => if v ≥ 6000 then { s with inputs.supply := .normal } else s

/-- A VBAT sample (R15): it replaces the latest sample, reaches the open attempt (R50) and is tested (R16). None is
taken in SLEEP. -/
def takeSample (pinMicroVolts : Nat) (s : State) : State :=
  if s.sensing then
    let v := vbatSample pinMicroVolts
    testSupply v
      { s with inputs.vbat := v, starts.attempt := s.starts.attempt.map (Attempt.sample v) }
  else s

/-- One tick step (R152), with the sample of its instant. The commit that the sample may ask for (R16) is asked for within
the step, before the checkpoint comparison and the doze expiry that fall due at the same tick: DESIGN CHOICE (log 36). The
crank tick (R49) and the sample (R50) stand on one side of every start and stop of the crank, where R50 lets one fall
without the other: DESIGN CHOICE (log 39). -/
def tickStep (pinMicroVolts : Nat) (s : State) : State :=
  takeSample pinMicroVolts
    (stepDoze (stepTimers (stepMeterTime (instantOver { s with inputs.tickUs := 0 }))))

end Sys2Proof.Machine
end

