-- ==== Sys2Proof/Machine/PowerSteps.lean ====
section
/-! DEFINITION. The meanings of the supply, reset, start-up and wake commands (sections 9.4 and 9.5, chapter 10). An
event that does not arise in the state it finds leaves the state as it is (log 1). -/

namespace Sys2Proof.Machine

open Sys2Proof

/-- An event that arises when a test holds: its work, and then the transmit arbiter. Otherwise nothing (log 1). -/
def whenDue (due : Bool) (work : State → State) (s : State) : Host.Outcome State Fault Refusal :=
  if due then settled (work s) else .next s

/-- POWER_ON (R160): the supply rises into its range; start-up begins at its restore step, or waits for RESETn. -/
def execPowerOn (s : State) : Host.Outcome State Fault Refusal :=
  if s.clock.supplyOn then .next s
  else
    .next (stopped (if s.clock.resetnHigh then .restore else .held)
      { s with clock.supplyOn := true })

/-- POWER_LOSS (R160, R173). -/
def execPowerLoss (s : State) : Host.Outcome State Fault Refusal :=
  if s.clock.supplyOn then .next (stopped .unpowered { s with clock.supplyOn := false }) else .next s

/-- RESETN_LOW (R160, R173): the part stops wherever it stands. -/
def execResetnLow (s : State) : Host.Outcome State Fault Refusal :=
  if s.clock.supplyOn then .next (stopped .held { s with clock.resetnHigh := false })
  else .next { s with clock.resetnHigh := false }

/-- RESETN_RISE (R160): start-up begins at its first step. -/
def execResetnRise (s : State) : Host.Outcome State Fault Refusal :=
  if s.clock.resetnHigh then .next s
  else if s.clock.supplyOn then .next (stopped .restore { s with clock.resetnHigh := true })
  else .next { s with clock.resetnHigh := true }

/-- RESTORE_STEP_END (R174, R175): the newest valid image, or a blank start. -/
def execRestoreStepEnd (baudselHigh : Bool) (s : State) : Host.Outcome State Fault Refusal :=
  whenDue (s.clock.power == .restore) (endRestore baudselHigh) s

/-- The four lines at the end of settle (R18). -/
def settleLines (s : State) : State :=
  { s with
    inputs.ign := s.inputs.ign.settle, inputs.crk := s.inputs.crk.settle,
    inputs.clu := s.inputs.clu.settle, inputs.rvs := s.inputs.rvs.settle }

/-- The power state at the end of start-up (R161): RUN with IGN active, else DOZE with the doze timer loaded. -/
def decidePower (s : State) : State :=
  if s.inputs.ign.level then { s with clock.power := .run, clock.doze := none, clock.dozeDue := false }
  else loadDoze { s with clock.power := .doze }

/-- The transmission hold set, with the commit it requires (R162). -/
def holdAndCommit (s : State) : State := askCommit { s with clock.hold := true }

/-- The steps of start-up at the end of settle, in their order (section 9.5): tracking, power state, lamps, hold,
RESTORED. -/
def endSettle (s : State) : State :=
  let shown := formLampsAfresh (decidePower (decideClutch (decideEngine (settleLines s))))
  holdAndCommit (raise .restored (.index shown.clock.outcome.code) shown)

/-- SETTLE_END (R161). -/
def execSettleEnd (s : State) : Host.Outcome State Fault Refusal :=
  whenDue (s.clock.power == .settle) endSettle s

/-- A transition of a watched pin in SLEEP (R14): the pin is held as last seen, no debounced level changes, and a
transition to the active level is a wake source. -/
def watchPin (l : SwitchLine) (high : Bool) (s : State) : State :=
  let seen := { s with inputs := s.inputs.setLine l { s.inputs.line l with pinHigh := high } }
  { seen with clock.waking := s.clock.waking || seen.pinActive l }

/-- A possible wake source in SLEEP (R159). A further one before the wake completes has no effect on it. -/
def takeWakeSource (source : WakeSource) (s : State) : State :=
  match source with
  | .ignPin high => watchPin .ign high s
  | .crkPin high => watchPin .crk high s
  | .rxStartEdge => { s with clock.waking := true }

/-- WAKE_SOURCE (R159). -/
def execWakeSource (source : WakeSource) (s : State) : Host.Outcome State Fault Refusal :=
  whenDue (s.clock.power == .sleep) (takeWakeSource source) s

/-- The completion of a wake (R159): DOZE with the doze timer loaded, the lamps formed afresh, and the hold with its
commit when the checkpoint is due at once. -/
def wake (s : State) : State :=
  let up := formLampsAfresh (loadDoze { s with clock.power := .doze, clock.waking := false })
  if up.checkpointPassed then holdAndCommit up else up

/-- WAKE_COMPLETE (R159). -/
def execWakeComplete (s : State) : Host.Outcome State Fault Refusal :=
  whenDue (s.clock.power == .sleep && s.clock.waking) wake s

end Sys2Proof.Machine
end

