-- ==== Sys2Proof/Machine/SensorEvents.lean ====
section
/-! DEFINITION. The meanings of the sensor commands (chapter 1): pulse edges, stalls, line samples, level changes. -/

namespace Sys2Proof.Machine

open Sys2Proof

/-- The channel takes edges in the present power state (R9, R17): ENG and INP while the part is awake or settles, OUT in
SLEEP as well. -/
def takesEdges (sh : Shaft) (s : State) : Bool := s.sensing || (sh == .out && s.clock.power == .sleep)

/-- A revolution of the output shaft counts at every accepted OUT edge (R7). -/
def countEdge (sh : Shaft) (s : State) : State :=
  match sh with
  | .out => { s with inputs := countRevolution s.inputs s.config.armed.chOut.ep }
  | .eng | .inp => s

/-- The doze timer's reaction to an accepted OUT edge (R155): it is loaded again in DOZE. An edge taken after a doze expiry
at the same instant cancels the sleep that the expiry has just set pending, which loads the timer as well. -/
def dozeEdge (s : State) : State :=
  match s.clock.sleep with
  | some p => if p.justSet then cancelSleep s else reloadDoze s
  | none => reloadDoze s

/-- An accepted edge while the part is awake or settles (R4); on OUT it reaches the doze timer (R155). -/
def acceptAwake (sh : Shaft) (clutchFirst : Bool) (s : State) : State :=
  let cfg := s.config.armed.channel sh
  let counted := countEdge sh (putChannel sh ((s.inputs.channel sh).edge cfg s.inputs.captureUs) clutchFirst s)
  match sh with
  | .out => dozeEdge counted
  | .eng | .inp => counted

/-- An accepted OUT edge in SLEEP (R9, R159): the channel stays STALLED; with wake-on-shaft on it is a wake source. -/
def acceptAsleep (s : State) : State :=
  let counted := countEdge .out { s with inputs.out.lastEdge := some s.inputs.captureUs }
  if s.config.armed.timing.wakeOnShaft then { counted with clock.waking := true } else counted

/-- An edge of a channel at the present instant, if it passes the minimum-interval test (R3). -/
def takeEdge (sh : Shaft) (clutchFirst : Bool) (s : State) : State :=
  if (s.inputs.channel sh).accepts (s.config.armed.channel sh) s.inputs.captureUs then
    if s.sensing then acceptAwake sh clutchFirst s else acceptAsleep s
  else s

/-- The work of a pulse edge at an instant of the tick: time passes to it, with the stalls that fall before it (R5), and
the edge is taken if the active-edge setting sees the transition (R2). -/
def edgeAt (sh : Shaft) (t : Transition) (us : Nat) (clutchFirst : Bool) (s : State) : State :=
  let now := passTo us s
  if (now.config.armed.channel sh).sees t && takesEdges sh now then takeEdge sh clutchFirst now else now

/-- PULSE_EDGE (R4). -/
def execPulseEdge (sh : Shaft) (t : Transition) (us : Nat) (clutchFirst : Bool) (s : State) :
    Host.Outcome State Fault Refusal :=
  whenDue s.ticking (edgeAt sh t us clutchFirst) s

/-- CHANNEL_STALL (R5): time passes to the instant, and the channel stalls if its elapsed time has reached its stall
time. -/
def execChannelStall (sh : Shaft) (us : Nat) (clutchFirst : Bool) (s : State) :
    Host.Outcome State Fault Refusal :=
  whenDue s.ticking (fun t => takeStall sh clutchFirst (passTo us t)) s

/-- LINE_LEVEL_CHANGE (R12). -/
def execLineLevelChange (l : SwitchLine) (hireFirst : Bool) (s : State) : Host.Outcome State Fault Refusal :=
  whenDue (levelChangeDue l s) (takeLevelChange l hireFirst) s

/-- One sample of a line while the part is awake (R11, R12): a change of level that an earlier sample made due is taken
first. -/
def sampleAwake (l : SwitchLine) (pinHigh : Bool) (s : State) : State :=
  let ready := takeLevelChange l false s
  { ready with inputs := ready.inputs.setLine l (debounce (ready.config.armed.line l) pinHigh (ready.inputs.line l)) }

/-- One sample of a line during the settle step (R18). -/
def sampleSettling (l : SwitchLine) (pinHigh : Bool) (s : State) : State :=
  { s with inputs := s.inputs.setLine l (settleSample (s.config.armed.line l) pinHigh (s.inputs.line l)) }

/-- SWITCH_LINE_SAMPLE (R11): lines are sampled while the part is awake and in the settle step (R14, R18). -/
def execSwitchLineSample (l : SwitchLine) (pinHigh : Bool) (s : State) : Host.Outcome State Fault Refusal :=
  if s.awake then settled (sampleAwake l pinHigh s)
  else whenDue s.sensing (sampleSettling l pinHigh) s

end Sys2Proof.Machine
end

