-- ==== Sys2Proof/Machine/ClockEvents.lean ====
section
/-! DEFINITION. The meanings of the clock's commands (chapter 9): the tick, the tally, the expiries of the timers, the
lamp's boundaries, the checkpoint; and of the completion of a commit (chapter 10). -/

namespace Sys2Proof.Machine

open Sys2Proof

/-- METER_TICK (R152): the rest of the tick passes, then the tick step with its VBAT sample. -/
def execMeterTick (vbatPinMicroVolts : Nat) (s : State) : Host.Outcome State Fault Refusal :=
  whenDue s.ticking (fun t => tickStep vbatPinMicroVolts (passTime (4000 - t.inputs.tickUs) t)) s

/-- TALLY (R153). -/
def execTally (o : TallyOrder) (s : State) : Host.Outcome State Fault Refusal :=
  whenDue (s.awake && s.clock.tallyDue) (takeTally o) s

/-- CHECKPOINT_DUE (R170). -/
def execCheckpointDue (s : State) : Host.Outcome State Fault Refusal :=
  whenDue (s.awake && s.clock.secondStep) takeCheckpointTest s

/-- CONFIRM_TIMER_EXPIRY (R25). -/
def execConfirmTimerExpiry (s : State) : Host.Outcome State Fault Refusal :=
  whenDue (confirmDue s) takeConfirmExpiry s

/-- LOCK_TIMER_EXPIRY (R33). -/
def execLockTimerExpiry (s : State) : Host.Outcome State Fault Refusal :=
  whenDue (lockDue s) takeLockExpiry s

/-- FRESHNESS_EXPIRY (R42). -/
def execFreshnessExpiry (s : State) : Host.Outcome State Fault Refusal :=
  whenDue (freshnessDue s) takeFreshnessExpiry s

/-- DOZE_TIMER_EXPIRY (R155). -/
def execDozeTimerExpiry (s : State) : Host.Outcome State Fault Refusal :=
  whenDue s.clock.dozeDue takeDozeExpiry s

/-- LAMP_CHECK_EXPIRY (R97). -/
def execLampCheckExpiry (s : State) : Host.Outcome State Fault Refusal :=
  whenDue (s.clock.lampCheck == some 0) takeLampCheckEnd s

/-- BLINK_PHASE_BOUNDARY (R96). -/
def execBlinkPhaseBoundary (m : LampId) (s : State) : Host.Outcome State Fault Refusal :=
  whenDue (boundaryDue (s.config.armed.lamp m) (s.table.lamp m)) (takeLampBoundary m) s

/-- COMMIT_COMPLETE (R168). An entry to SLEEP that the completion brings comes before the arbiter at that instant, so a
reply that it releases waits for the wake: DESIGN CHOICE (log 41). -/
def execCommitComplete (r : CommitResult) (s : State) : Host.Outcome State Fault Refusal :=
  whenDue (s.store.commit != .idle) (takeCompletion r) s

end Sys2Proof.Machine
end

