-- ==== Sys2Proof/Machine/LinkEvents.lean ====
section
/-! DEFINITION. The meanings of the link's own commands (chapter 11): bytes and frames received, the end of a
transmission, frames that name no request. -/

namespace Sys2Proof.Machine

open Sys2Proof

/-- FRAME_RECEIVED (R177); in SLEEP its start edge is a wake source (R157). -/
def execFrameReceived (bytes : List Byte) (s : State) : Host.Outcome State Fault Refusal :=
  whenDue s.ticking (receive (bytes.map .byte)) s

/-- INTER_BYTE_TIMEOUT (R177): bytes, and then more than 5 ms without one. -/
def execInterByteTimeout (bytes : List Byte) (s : State) : Host.Outcome State Fault Refusal :=
  whenDue s.ticking (receive (bytes.map .byte ++ [.gap])) s

/-- Bytes of which the last arrived with its stop bit low, when told so. -/
def withStop : List Byte → Bool → List RxItem
  | [], _ => []
  | [b], stopLow => [if stopLow then .badStop b else .byte b]
  | b :: rest, stopLow => .byte b :: withStop rest stopLow

/-- FRAME_DISCARDED (R177): bytes that end a frame without its being good. -/
def execFrameDiscarded (bytes : List Byte) (stopLow : Bool) (s : State) : Host.Outcome State Fault Refusal :=
  whenDue s.ticking (receive (withStop bytes stopLow)) s

/-- The sleep pending of a SLEEP reply that has left TX: ready, and its entry test (R157). -/
def sleepReplySent (s : State) : State :=
  sleepTest { s with clock.sleep := s.clock.sleep.map fun p =>
    if p.stage = .reply then { p with stage := .ready } else p }

/-- What the end of a frame does beyond freeing the line (R157, R163). The start-up of a RESTART abandons a commit in
flight: DEDUCED (log 17). -/
def frameSent (source : TxSource) (s : State) : State :=
  match source with
  | .reply .startUp => stopped .restore s
  | .reply .sleepLive => sleepReplySent s
  | .reply .nothing | .reply .sleepReplaced | .reply .sleepCancelled | .notice _ | .report => s

/-- TRANSMIT_COMPLETE (R184): the last byte of the frame leaves TX. An entry to SLEEP that the end of a SLEEP reply brings
comes before the arbiter at that instant, so what else is ready to be sent waits for the wake: DESIGN CHOICE (log 41). -/
def execTransmitComplete (s : State) : Host.Outcome State Fault Refusal :=
  match s.link.tx with
  | none => .next s
  | some tx => settled (frameSent tx.source { s with link.tx := none })

/-- A KIND below 0x80 that names no request (R178). -/
def isUnknownKind (k : Byte) : Bool := !isReplyKind k && (requestOfKind k).isNone

/-- UNKNOWN_REQUEST (R178). -/
def execUnknownRequest (s : State) : Host.Outcome State Fault Refusal :=
  takeHead isUnknownKind (fun f t => refuse f .refusedUnknown t) s

/-- REPLY_KIND_FRAME_DROP (R178): the frame leaves the queue without a reply, when a frame can be taken: DEDUCED
(log 14). -/
def execReplyKindFrameDrop (s : State) : Host.Outcome State Fault Refusal :=
  takeHead isReplyKind (fun _ t => t) s

end Sys2Proof.Machine
end

