-- ==== Sys2Proof/Machine/ReadRequests.lean ====
section
/-! DEFINITION. The meanings of the reading requests: each is answered DONE at once with values as they stand at its
taking, asks for no commit and changes nothing but the link's own queues. -/

namespace Sys2Proof.Machine

open Sys2Proof

/-- The fields of the IDENTIFY reply (R185); the serial number is the part's own (log 4). -/
def identifyFields : List Field :=
  [.num 2 0x5576, .num 2 0x0816, .num 1 0x01, .num 8 Config.serialNumber.toNat]

/-- IDENTIFY (R185). -/
def execIdentify (s : State) : Host.Outcome State Fault Refusal :=
  takeKind 0x01 (noPayload fun f t => answerDone f identifyFields t) s

/-- READ_STATUS (R185). -/
def execReadStatus (s : State) : Host.Outcome State Fault Refusal :=
  takeKind 0x02 (noPayload fun f t => answerDone f (statusFields t) t) s

/-- The fields of the READ_SLOT reply (R93, section 11.7.3). -/
def slotFields (k : Slot) (s : State) : List Field :=
  let c := s.config.armed.slots.get k
  let m := s.table.slots.get k
  [.num 1 k.val, .num 1 c.law.code, .num 4 c.advisory, .num 2 c.limit, .num 4 m.total, .num 4 m.unitTotal,
    .num 4 m.sinceService, .num 1 m.residue, .num 1 m.statusCode, .num 4 m.services, .optTime m.lastService,
    .optTime m.installed]

/-- READ_SLOT (R93). -/
def execReadSlot (s : State) : Host.Outcome State Fault Refusal :=
  takeKind 0x03
    (oneField 1 fun f n => onSlot n (fun g k t => answerDone g (slotFields k t) t) f) s

/-- The fields of the READ_METERS reply (R46, R54, section 11.7.3). -/
def meterFields (s : State) : List Field :=
  let m := s.duty.meters
  [.num 4 m.runTallies, .num 4 m.ignitionTallies, .num 4 m.stalls, .num 4 m.clutchEngagements, .num 4 m.lockLosses] ++
    m.gearEngagements.toList.map (.num 4) ++ [.num 4 m.outputRevolutions] ++ startFields s.starts.life

/-- READ_METERS (R46). -/
def execReadMeters (s : State) : Host.Outcome State Fault Refusal :=
  takeKind 0x04 (noPayload fun f t => answerDone f (meterFields t) t) s

/-- The work of READ_HIRE (R114). -/
def readHireWork (f : Frame) (s : State) : State :=
  match s.hires.current with
  | none => refuse f .refusedNoHire s
  | some h => answerDone f (hireFields h) s

/-- READ_HIRE (R114). -/
def execReadHire (s : State) : Host.Outcome State Fault Refusal := takeKind 0x05 (noPayload readHireWork) s

/-- The work of READ_HISTORY (R129): the index counts from the oldest summary. -/
def readHistoryWork (f : Frame) (n : Nat) (s : State) : State :=
  match s.hires.history[n]? with
  | none => refuse f .refusedRange s
  | some m =>
    answerDone f
      ([.num 1 n, .num 1 s.hires.history.length, .hireNo (some s.hires.released)] ++ summaryFields m) s

/-- READ_HISTORY (R129). -/
def execReadHistory (s : State) : Host.Outcome State Fault Refusal := takeKind 0x06 (oneField 1 readHistoryWork) s

/-- The next attempt number as a field: absent when EXHAUSTED (section 11.7.3). -/
def nextAttemptField (s : State) : Field := .opt 4 (if s.starts.next ≥ exhausted then none else some s.starts.next)

/-- The work of READ_START_LOG (R58): the index counts from the newest entry. -/
def readStartLogWork (f : Frame) (n : Nat) (s : State) : State :=
  match s.starts.log[n]? with
  | none => refuse f .refusedRange s
  | some e =>
    answerDone f ([.num 1 n, .num 1 s.starts.log.length, nextAttemptField s] ++ startEntryFields e) s

/-- READ_START_LOG (R58). -/
def execReadStartLog (s : State) : Host.Outcome State Fault Refusal := takeKind 0x07 (oneField 1 readStartLogWork) s

/-- READ_IDLE (R117). -/
def execReadIdle (s : State) : Host.Outcome State Fault Refusal :=
  takeKind 0x08 (noPayload fun f t => answerDone f (nums8 4 t.hires.idle ++ nums8 4 t.hires.settled) t) s

end Sys2Proof.Machine
end

