-- ==== Sys2Proof/Machine/HireRequests.lean ====
section
/-! DEFINITION. The meanings of the hire requests and the releases (chapters 6 and 7). -/

namespace Sys2Proof.Machine

open Sys2Proof

/-- The fields of the OPEN_HIRE reply (R106): the hire now open, and the number of the superseded one. -/
def openedFields (superseded : Option Nat) (s : State) : List Field :=
  match s.hires.current with
  | some h => [.hireNo (some h.number), .num 1 h.cls.code, .num 2 h.generation, .hireNo superseded]
  | none => []

/-- The work of OPEN_HIRE (R106). -/
def openHireWork (f : Frame) (key : Nat) (s : State) : State :=
  if s.inSetup then refuse f .refusedSetupActive s
  else if s.hires.next ≥ exhausted then refuse f .refusedRange s
  else
    let opened := openNewHire key s
    deferReply f (.kept (openedFields s.hireNumber opened)) .nothing opened

/-- OPEN_HIRE (R106). -/
def execOpenHire (s : State) : Host.Outcome State Fault Refusal := takeKind 0x10 (oneField 4 openHireWork) s

/-- The work of CLOSE_HIRE (R110): the reply carries the summary formed for this hire, unmerged, and whether two older
ones were merged to make room. -/
def closeHireWork (f : Frame) (s : State) : State :=
  match s.hires.current with
  | none => refuse f .refusedNoHire s
  | some h =>
    let merges := boolCode (decide (historyMax ≤ s.hires.history.length))
    deferReply f (.kept (.num 1 merges :: summaryFields (summaryOf h .hostClose s.clock.time))) .nothing
      (closeOpenHire .hostClose s)

/-- CLOSE_HIRE (R110). -/
def execCloseHire (s : State) : Host.Outcome State Fault Refusal := takeKind 0x11 (noPayload closeHireWork) s

/-- The hire number and hire state, as SUSPEND_HIRE and RESUME_HIRE answer them. -/
def hireStateFields (s : State) : List Field := [.hireNo s.hireNumber, .num 1 (hireStateCode s.hires.current)]

/-- SUSPEND_HIRE and RESUME_HIRE: nothing to do in the state asked for, else the change of state (R108, R109). -/
def suspendWork (b : Bool) (f : Frame) (s : State) : State :=
  match s.hires.current with
  | none => refuse f .refusedNoHire s
  | some h =>
    if h.suspended = b then answerDone f (hireStateFields s) s
    else deferReply f (.kept (hireStateFields (setSuspended b s))) .nothing (setSuspended b s)

/-- SUSPEND_HIRE (R108). -/
def execSuspendHire (s : State) : Host.Outcome State Fault Refusal := takeKind 0x12 (noPayload (suspendWork true)) s

/-- RESUME_HIRE (R109). -/
def execResumeHire (s : State) : Host.Outcome State Fault Refusal := takeKind 0x13 (noPayload (suspendWork false)) s

/-- The fields of the RELEASE_HISTORY reply (R132). -/
def releaseFields (removed : List Summary) (released : Nat) : List Field :=
  [.num 1 removed.length, .hireNo (some released)] ++ nums8 4 (wearOf removed)

/-- The work of RELEASE_HISTORY (R131, R132). A highest released number of 0 is carried as present: DEDUCED (log 28). -/
def releaseHistoryWork (f : Frame) (n : Nat) (s : State) : State :=
  let out := releasable n s.hires.history
  if out.isEmpty then answerDone f (releaseFields [] s.hires.released) s
  else
    let after := releaseThrough n s.hires
    deferReply f (.kept (releaseFields out after.released)) .nothing { s with hires := after }

/-- RELEASE_HISTORY (R131). -/
def execReleaseHistory (s : State) : Host.Outcome State Fault Refusal :=
  takeKind 0x14 (oneField 4 releaseHistoryWork) s

/-- The work of RELEASE_IDLE (R118). -/
def releaseIdleWork (f : Frame) (s : State) : State :=
  deferReply f (.kept (nums8 4 s.hires.idle)) .nothing { s with hires := releasePool s.hires }

/-- RELEASE_IDLE (R118). -/
def execReleaseIdle (s : State) : Host.Outcome State Fault Refusal := takeKind 0x15 (noPayload releaseIdleWork) s

end Sys2Proof.Machine
end

