-- ==== Sys2Proof/Machine/VehicleRequests.lean ====
section
/-! DEFINITION. The meanings of DECLARE_CONDITION (section 2.4), RECORD_SERVICE and INSTALL_UNIT (section 5.2). -/

namespace Sys2Proof.Machine

open Sys2Proof

/-- The coolant field of a declaration, present or absent; none for a presence byte or value that R41 refuses. -/
def coolantOf (presence value : Nat) : Option (Option Int) :=
  (optField presence value).map fun v => v.map signed16

/-- The fields of the DECLARE_CONDITION reply (R41). -/
def conditionFields (s : State) : List Field :=
  [.optTemp s.duty.coolant, .num 1 (boolCode (!s.duty.fresh)), .num 1 s.duty.load.code]

/-- The work of DECLARE_CONDITION (R41). -/
def declareWork (f : Frame) (load presence value : Nat) (s : State) : State :=
  match loadOfCode load, coolantOf presence value with
  | some l, some c => answerDone f (conditionFields (declare l c s)) (declare l c s)
  | _, _ => refuse f .refusedRange s

/-- DECLARE_CONDITION (R41). -/
def execDeclareCondition (s : State) : Host.Outcome State Fault Refusal :=
  takeKind 0x18
    (withFields [1, 1, 2] fun f vs t => declareWork f (vs.getD 0 0) (vs.getD 1 0) (vs.getD 2 0) t) s

/-- One slot's meters changed by a request, its marks re-evaluated (R87), and what follows a change of marks. -/
def changeSlot (k : Slot) (change : SlotMeters → SlotMeters) (s : State) : State :=
  let m := remark (s.config.armed.slots.get k) (change (s.table.slots.get k))
  marksChanged s.table.slots { s with table.slots := s.table.slots.set k m }

/-- A service recorded at a meter time (R89). -/
def SlotMeters.serviced (t : MeterTime) (m : SlotMeters) : SlotMeters :=
  { m with sinceService := 0, services := satAdd m.services 1, lastService := some t }

/-- A unit installed at a meter time with the wear it carries in (R90). -/
def SlotMeters.installedUnit (carried : Nat) (t : MeterTime) (m : SlotMeters) : SlotMeters :=
  { m with unitTotal := carried, sinceService := 0, installed := some t }

/-- The work of RECORD_SERVICE (R89, R91). -/
def recordServiceWork (f : Frame) (k : Slot) (s : State) : State :=
  let after := changeSlot k (SlotMeters.serviced s.clock.time) s
  deferReply f (.kept [.num 1 k.val, .num 4 (after.table.slots.get k).services, .time s.clock.time]) .nothing after

/-- RECORD_SERVICE (R89). -/
def execRecordService (s : State) : Host.Outcome State Fault Refusal :=
  takeKind 0x20 (oneField 1 fun f n => onSlot n recordServiceWork f) s

/-- The work of INSTALL_UNIT (R90, R91). -/
def installUnitWork (carried : Nat) (f : Frame) (k : Slot) (s : State) : State :=
  deferReply f (.kept [.num 1 k.val, .num 4 carried, .time s.clock.time]) .nothing
    (changeSlot k (SlotMeters.installedUnit carried s.clock.time) s)

/-- INSTALL_UNIT (R90). -/
def execInstallUnit (s : State) : Host.Outcome State Fault Refusal :=
  takeKind 0x21 (twoFields 1 4 fun f n carried => onSlot n (installUnitWork carried) f) s

end Sys2Proof.Machine
end

