-- ==== Sys2Proof/Machine/SetupRequests.lean ====
section
/-! DEFINITION. The meanings of the configuration requests (chapter 8). -/

namespace Sys2Proof.Machine

open Sys2Proof

/-- The generation as ENTER_SETUP, ARM and ABANDON answer it. -/
def generationFields (s : State) : List Field := [.num 2 s.config.generation]

/-- The work of ENTER_SETUP (R138). -/
def enterSetupWork (f : Frame) (s : State) : State :=
  if s.hires.current.isSome then refuse f .refusedHireOpen s
  else
    answerDone f (generationFields s)
      { s with config.staging := some (s.config.staging.getD s.config.armed) }

/-- ENTER_SETUP (R138). -/
def execEnterSetup (s : State) : Host.Outcome State Fault Refusal := takeKind 0x30 (noPayload enterSetupWork) s

/-- The refusal of a SET_ITEM's payload, or the item it carries (R139): an identifier that names no item, a length that
does not match the item, a code outside its values. -/
def itemOfPayload : List Byte → Except ReplyCode (ItemId × ItemValue)
  | [] => .error .refusedLength
  | id :: rest =>
    match itemOfId id.toNat with
    | none => .error .refusedRange
    | some i =>
      match splitFields i.widths rest with
      | none => .error .refusedLength
      | some vs =>
        match itemOfFields i vs with
        | none => .error .refusedRange
        | some v => .ok (i, v)

/-- The work of SET_ITEM (R139); the order of its refusals is DEDUCED (log 15). -/
def setItemWork (f : Frame) (s : State) : State :=
  match s.config.staging with
  | none => refuse f .refusedNotInSetup s
  | some st =>
    match itemOfPayload f.payload with
    | .error code => refuse f code s
    | .ok (i, v) =>
      answerDone f (.num 1 i.number :: itemFields (storeItem st v) i)
        { s with config.staging := some (storeItem st v) }

/-- SET_ITEM (R139). -/
def execSetItem (s : State) : Host.Outcome State Fault Refusal := takeKind 0x31 setItemWork s

/-- The work of READ_ITEM (R140): the staging set in SETUP, else the armed set. -/
def readItemWork (f : Frame) (n : Nat) (s : State) : State :=
  match itemOfId n with
  | none => refuse f .refusedRange s
  | some i =>
    answerDone f
      ([.num 1 (boolCode s.inSetup), .num 2 s.config.generation, .num 1 i.number] ++
        itemFields (s.config.staging.getD s.config.armed) i) s

/-- READ_ITEM (R140). -/
def execReadItem (s : State) : Host.Outcome State Fault Refusal := takeKind 0x32 (oneField 1 readItemWork) s

/-! ## ARM (R142 to R144) -/

/-- The next generation (R137). -/
def nextGeneration (n : Nat) : Nat := min (n + 1) 65534

/-- The lamps at a swap (R98), while the part is awake. -/
def rearmLamps (old : Settings) (s : State) : State :=
  if s.awake then
    { s with
      table.lamp1 := rearmLamp old.lamp1 s.config.armed.lamp1 s.table.slots s.table.lamp1,
      table.lamp2 := rearmLamp old.lamp2 s.config.armed.lamp2 s.table.slots s.table.lamp2 }
  else s

/-- The stall that a new stall time brings at once to a channel whose item has changed (R10): within the step of ARM,
DEDUCED (log 18). -/
def restall (sh : Shaft) (old : Settings) (clutchFirst : Bool) (s : State) : State :=
  if old.channel sh = s.config.armed.channel sh then s else takeStall sh clutchFirst s

/-- The stalls that a swap brings. The order of those of ENG and INP, and of the engine and clutch at that of ENG, is
free (log 6). -/
def restallAll (old : Settings) (s : State) : State :=
  let pick := Config.freePick s.freePicks
  let first := pick.testBit 0
  let counted := restall .out old first { s with freePicks := s.freePicks + 1 }
  if pick.testBit 1 then restall .eng old first (restall .inp old first counted)
  else restall .inp old first (restall .eng old first counted)

/-- The confirm and lock timers take their lengths from the new items, and expire at once if that many ticks have
passed (R30, R36): within the step of ARM, DEDUCED (log 18). -/
def rearmTimers (old : Settings) (s : State) : State :=
  let confirmed := if old.engine = s.config.armed.engine then s else takeConfirmExpiry s
  if old.clutch = s.config.armed.clutch then confirmed else takeLockExpiry confirmed

/-- The swap (R143): the staging set becomes the armed set, the generation rises, the marks are re-evaluated under the
new thresholds and the lamps formed from them, and each block applies the new set to what it holds. The stalls that the
new CHANNEL items bring come before the confirm and lock expiries that the new ENGINE and CLUTCH items bring, where R28
and R35 leave either order: DESIGN CHOICE (log 44). -/
def swap (new : Settings) (s : State) : State :=
  let old := s.config.armed
  let before := s.table.slots
  let swapped :=
    { s with
      config.armed := new, config.staging := none, config.generation := nextGeneration s.config.generation,
      inputs := rearmOut old.chOut new.chOut s.inputs,
      table.slots := Eight.zip remark new.slots s.table.slots }
  rearmTimers old (restallAll old (rearmLamps old (raiseMarks before swapped)))

/-- The work of ARM (R142 to R144). -/
def armWork (f : Frame) (s : State) : State :=
  match s.config.staging with
  | none => refuse f .refusedNotInSetup s
  | some new =>
    match firstFailing new with
    | some id => answer f .refusedInvalidConfig [.num 1 id] s
    | none =>
      if new = s.config.armed then answerDone f (generationFields s) { s with config.staging := none }
      else deferReply f (.kept [.num 2 (nextGeneration s.config.generation)]) .nothing (swap new s)

/-- ARM (R142). -/
def execArm (s : State) : Host.Outcome State Fault Refusal := takeKind 0x33 (noPayload armWork) s

/-! ## Leaving and clearing -/

/-- The work of ABANDON (R145). -/
def abandonWork (f : Frame) (s : State) : State :=
  answerDone f (generationFields s) { s with config.staging := none }

/-- ABANDON (R145). -/
def execAbandon (s : State) : Host.Outcome State Fault Refusal := takeKind 0x34 (noPayload abandonWork) s

/-- The work of LOAD_DEFAULTS (R146). -/
def loadDefaultsWork (f : Frame) (s : State) : State :=
  if s.inSetup then answerDone f [] { s with config.staging := some factorySettings }
  else refuse f .refusedNotInSetup s

/-- LOAD_DEFAULTS (R146). -/
def execLoadDefaults (s : State) : Host.Outcome State Fault Refusal := takeKind 0x35 (noPayload loadDefaultsWork) s

/-- The accounts, meters and logs cleared (R148). -/
def clearAccounts (s : State) : State :=
  formLamps
    { s with
      table.slots := Eight.all blankSlot, hires := clearHires s.hires,
      starts.log := [], starts.life := zeroStarts, duty.meters := zeroMeters, inputs.outPending := 0 }

/-- The work of CLEAR_ACCOUNTING (R147 to R149). -/
def clearAccountingWork (f : Frame) (s : State) : State :=
  if !s.inSetup then refuse f .refusedNotInSetup s
  else if s.inputs.ign.level then refuse f .refusedIgnition s
  else deferReply f (.kept []) .nothing (clearAccounts s)

/-- CLEAR_ACCOUNTING (R148). -/
def execClearAccounting (s : State) : Host.Outcome State Fault Refusal :=
  takeKind 0x36 (noPayload clearAccountingWork) s

end Sys2Proof.Machine
end

