-- ==== Sys2Proof/Machine/SystemRequests.lean ====
section
/-! DEFINITION. The meanings of CHECKPOINT (R168), SLEEP (R156), RESTART (R163), and of the link's own requests
(sections 11.3 and 11.4). -/

namespace Sys2Proof.Machine

open Sys2Proof

/-- CHECKPOINT (R168). -/
def execCheckpoint (s : State) : Host.Outcome State Fault Refusal :=
  takeKind 0x40 (noPayload fun f t => deferReply f .checkpoint .nothing t) s

/-- A sleep pending of origin REQUEST (R156); an earlier pending gives way to it: DEDUCED
(log 16). -/
def pendSleep (s : State) : State :=
  { s with
    clock.sleep := some ⟨.request, .commit s.boundNow, false, false⟩, link := s.link.mapAfter AfterReply.replaced }

/-- The work of SLEEP (R156). -/
def sleepWork (f : Frame) (s : State) : State :=
  if s.inputs.ign.level then refuse f .refusedIgnition s
  else if !s.sleepConditions then refuse f .refusedEngine s
  else deferReply f .sleepOutcome .sleepLive (pendSleep s)

/-- SLEEP (R156). -/
def execSleep (s : State) : Host.Outcome State Fault Refusal := takeKind 0x41 (noPayload sleepWork) s

/-- RESTART (R163): no further request is taken. -/
def execRestart (s : State) : Host.Outcome State Fault Refusal :=
  takeKind 0x42 (noPayload fun f t => deferReply f (.kept []) .startUp { t with link.restartTaken := true }) s

/-- The enable mask and the flags set, as NOTICE_MASK and CLEAR_FLAGS answer them. -/
def flagFields (s : State) : List Field := [.num 2 s.link.flags.maskWord, .num 2 s.link.flags.setWord]

/-- The work of NOTICE_MASK (R180). -/
def noticeMaskWork (f : Frame) (mask : Nat) (s : State) : State :=
  let t := { s with link.flags := s.link.flags.remask mask }
  answerDone f (flagFields t) t

/-- NOTICE_MASK (R180). -/
def execNoticeMask (s : State) : Host.Outcome State Fault Refusal := takeKind 0x48 (oneField 2 noticeMaskWork) s

/-- The work of CLEAR_FLAGS (R181). -/
def clearFlagsWork (f : Frame) (mask : Nat) (s : State) : State :=
  answerDone f (flagFields (clearFlagsIn mask s)) (clearFlagsIn mask s)

/-- CLEAR_FLAGS (R181). -/
def execClearFlags (s : State) : Host.Outcome State Fault Refusal := takeKind 0x49 (oneField 2 clearFlagsWork) s

/-- The work of STREAM (R183). A start keeps an unsent report: DEDUCED (log 27). -/
def streamWork (f : Frame) (period count : Nat) (s : State) : State :=
  if 600 < period then refuse f .refusedRange s
  else if period = 0 then
    answerDone f [.num 2 0, .num 2 0] { s with link.stream := none, link.report := none }
  else
    let started : Stream := ⟨period, if count = 0 then none else some count, 0⟩
    answerDone f [.num 2 period, .num 2 count] { s with link.stream := some started }

/-- STREAM (R183). -/
def execStream (s : State) : Host.Outcome State Fault Refusal := takeKind 0x4A (twoFields 2 2 streamWork) s

end Sys2Proof.Machine
end

