-- ==== Sys2Proof/Machine/Dispatch.lean ====
section
/-! DEFINITION. The dispatch: one arm per command, in the order of spec/opcode_table.json. -/

namespace Sys2Proof.Machine

open Sys2Proof

/-- A command's effect on everything but the queue of waiting commands. -/
def exec (i : Instr) (s : State) : Host.Outcome State Fault Refusal :=
  match i with
  | .powerOn => Sys2Proof.Machine.execPowerOn s
  | .powerLoss => Sys2Proof.Machine.execPowerLoss s
  | .resetnLow => Sys2Proof.Machine.execResetnLow s
  | .resetnRise => Sys2Proof.Machine.execResetnRise s
  | .restoreStepEnd baudselHigh => Sys2Proof.Machine.execRestoreStepEnd baudselHigh s
  | .settleEnd => Sys2Proof.Machine.execSettleEnd s
  | .pulseEdge shaft transition us clutchFirst => Sys2Proof.Machine.execPulseEdge shaft transition us clutchFirst s
  | .channelStall shaft us clutchFirst => Sys2Proof.Machine.execChannelStall shaft us clutchFirst s
  | .lineLevelChange line hireFirst => Sys2Proof.Machine.execLineLevelChange line hireFirst s
  | .wakeSource source => Sys2Proof.Machine.execWakeSource source s
  | .wakeComplete => Sys2Proof.Machine.execWakeComplete s
  | .meterTick vbatPinMicroVolts => Sys2Proof.Machine.execMeterTick vbatPinMicroVolts s
  | .tally order => Sys2Proof.Machine.execTally order s
  | .checkpointDue => Sys2Proof.Machine.execCheckpointDue s
  | .confirmTimerExpiry => Sys2Proof.Machine.execConfirmTimerExpiry s
  | .lockTimerExpiry => Sys2Proof.Machine.execLockTimerExpiry s
  | .freshnessExpiry => Sys2Proof.Machine.execFreshnessExpiry s
  | .dozeTimerExpiry => Sys2Proof.Machine.execDozeTimerExpiry s
  | .lampCheckExpiry => Sys2Proof.Machine.execLampCheckExpiry s
  | .blinkPhaseBoundary lamp => Sys2Proof.Machine.execBlinkPhaseBoundary lamp s
  | .commitComplete result => Sys2Proof.Machine.execCommitComplete result s
  | .frameReceived bytes => Sys2Proof.Machine.execFrameReceived bytes s
  | .interByteTimeout bytes => Sys2Proof.Machine.execInterByteTimeout bytes s
  | .transmitComplete => Sys2Proof.Machine.execTransmitComplete s
  | .identify => Sys2Proof.Machine.execIdentify s
  | .readStatus => Sys2Proof.Machine.execReadStatus s
  | .readSlot => Sys2Proof.Machine.execReadSlot s
  | .readMeters => Sys2Proof.Machine.execReadMeters s
  | .readHire => Sys2Proof.Machine.execReadHire s
  | .readHistory => Sys2Proof.Machine.execReadHistory s
  | .readStartLog => Sys2Proof.Machine.execReadStartLog s
  | .readIdle => Sys2Proof.Machine.execReadIdle s
  | .openHire => Sys2Proof.Machine.execOpenHire s
  | .closeHire => Sys2Proof.Machine.execCloseHire s
  | .suspendHire => Sys2Proof.Machine.execSuspendHire s
  | .resumeHire => Sys2Proof.Machine.execResumeHire s
  | .releaseHistory => Sys2Proof.Machine.execReleaseHistory s
  | .releaseIdle => Sys2Proof.Machine.execReleaseIdle s
  | .declareCondition => Sys2Proof.Machine.execDeclareCondition s
  | .recordService => Sys2Proof.Machine.execRecordService s
  | .installUnit => Sys2Proof.Machine.execInstallUnit s
  | .enterSetup => Sys2Proof.Machine.execEnterSetup s
  | .setItem => Sys2Proof.Machine.execSetItem s
  | .readItem => Sys2Proof.Machine.execReadItem s
  | .arm => Sys2Proof.Machine.execArm s
  | .abandon => Sys2Proof.Machine.execAbandon s
  | .loadDefaults => Sys2Proof.Machine.execLoadDefaults s
  | .clearAccounting => Sys2Proof.Machine.execClearAccounting s
  | .checkpoint => Sys2Proof.Machine.execCheckpoint s
  | .sleep => Sys2Proof.Machine.execSleep s
  | .restart => Sys2Proof.Machine.execRestart s
  | .noticeMask => Sys2Proof.Machine.execNoticeMask s
  | .clearFlags => Sys2Proof.Machine.execClearFlags s
  | .stream => Sys2Proof.Machine.execStream s
  | .unknownRequest => Sys2Proof.Machine.execUnknownRequest s
  | .replyKindFrameDrop => Sys2Proof.Machine.execReplyKindFrameDrop s
  | .switchLineSample line pinHigh => Sys2Proof.Machine.execSwitchLineSample line pinHigh s
  | .frameDiscarded bytes stopLow => Sys2Proof.Machine.execFrameDiscarded bytes stopLow s

end Sys2Proof.Machine
end

