-- ==== Sys2Proof/Safety.lean ====
section
/-! DEFINITION. What a safe run of the block keeps: the laws that the manual states of the whole part, as tests on a
state. A law about retained state is a law of every image as well, since a restore brings an image back. -/

namespace Sys2Proof.Safety

open Sys2Proof Sys2Proof.Machine

/-! ## Images -/

/-- The image of a commit in flight. -/
def flightImages : Commit → List Image
  | .idle => []
  | .inFlight f => [f.image]
  | .inFlightPending f => [f.image]

/-- Every image that a restore could bring back: those in the areas, and the one that a commit is writing. -/
def imagesOf (s : State) : List Image := (validImages s.store.areas).map (·.2) ++ flightImages s.store.commit

/-! ## Conservation of wear (R119) -/

/-- The wear of the open hire, per slot; none without one. -/
def openWear : Option HireRecord → Eight Nat
  | none => zeroAccounts
  | some h => h.wear

/-- One slot's accounts add up to its slot total, which stays within its range (R77, R119). -/
def slotBalances (m : SlotMeters) (settled idle history openHire : Nat) : Bool :=
  m.total == settled + idle + history + openHire && decide (m.total ≤ top32)

/-- All eight slots' accounts add up (R119). -/
def balances (slots : Eight SlotMeters) (settled idle : Eight Nat) (history : List Summary)
    (current : Option HireRecord) : Bool :=
  (Eight.ofFn fun k =>
    slotBalances (slots.get k) (settled.get k) (idle.get k) ((wearOf history).get k)
      ((openWear current).get k)).toList.all id

/-- The accounts of an image add up. -/
def imageBalances (i : Image) : Bool := balances i.slots i.settled i.idle i.history i.openHire

/-- No hire is open in SETUP (R101). -/
def hireExcludesSetup (s : State) : Bool := !(s.config.staging.isSome && s.hires.current.isSome)

/-- The conservation of wear, in the working state and in every image. -/
def conserves (s : State) : Bool :=
  hireExcludesSetup s &&
    balances s.table.slots s.hires.settled s.hires.idle s.hires.history s.hires.current &&
    (imagesOf s).all imageBalances

/-! ## The numbering of hires (R103, R122) -/

/-- Spans that ascend without a gap from one above a number: the last number they reach; none with a gap or a span that
runs backwards. -/
def spansReach (n : Nat) : List Summary → Option Nat
  | [] => some n
  | m :: rest => if m.first = n + 1 ∧ m.first ≤ m.last then spansReach m.last rest else none

/-- The history holds at most 32 summaries, and its spans run from one above the highest released number to one below
the open hire's number, or to one below the next hire number with no hire open; the open hire carries the last number
assigned. -/
def numbered (history : List Summary) (released next : Nat) (current : Option HireRecord) : Bool :=
  decide (history.length ≤ historyMax) && decide (1 ≤ next ∧ next ≤ exhausted) &&
    match current with
    | none => spansReach released history == some (next - 1)
    | some h => spansReach released history == some (h.number - 1) && h.number + 1 == next && decide (1 ≤ h.number)

/-- The law of R122 in an image. -/
def imageNumbered (i : Image) : Bool := numbered i.history i.released i.nextHire i.openHire

/-- The law of R122, in the working state and in every image. -/
def numbersHires (s : State) : Bool :=
  hireExcludesSetup s && numbered s.hires.history s.hires.released s.hires.next s.hires.current &&
    (imagesOf s).all imageNumbered

/-! ## Capacities -/

/-- An image's lists are within their capacities (R56, R122). -/
def imageFits (i : Image) : Bool := decide (i.history.length ≤ historyMax) && decide (i.startLog.length ≤ 32)

/-- The lists and buffers of the part are within their capacities (R56, R122, R177, R178). -/
def withinCapacity (s : State) : Bool :=
  decide (s.hires.history.length ≤ historyMax) && decide (s.starts.log.length ≤ 32) &&
    decide (s.link.queue.length ≤ 4) && decide (s.link.entries ≤ 4) && (imagesOf s).all imageFits

/-! ## Tracking and power -/

/-- The engine, clutch, attempt and power state fit together (R20, R31, R47, R154): the engine is in READY, CRANKING,
CONFIRMING or RUNNING exactly while IGN is active; the clutch is in IDLE exactly while the engine does not turn under
power; an attempt is open throughout CRANKING and CONFIRMING, and otherwise in RUNNING alone; awake, the part is in RUN
exactly while IGN is active; in every other power state IGN is inactive and the engine is in OFF. -/
def tracks (s : State) : Bool :=
  (s.inputs.ign.level == (s.duty.engine != .off && s.duty.engine != .runDown)) &&
    ((s.duty.clutch == .idle) == !s.duty.engine.turning) &&
    (if s.duty.engine = .cranking ∨ s.duty.engine = .confirming then s.starts.attempt.isSome
      else s.starts.attempt.isNone || s.duty.engine == .running) &&
    (s.duty.confirmTimer.isSome == (s.duty.engine == .confirming)) &&
    (s.duty.lockTimer.isNone || s.duty.clutch == .slipping) &&
    (s.inputs.ign.level == (s.clock.power == .run)) &&
    (s.awake || s.duty.engine == .off)

/-- What SLEEP and the transmission hold keep (R157, R158, R162, R166): in SLEEP no commit is in flight and no event of
the waking state is due; the hold is set only while a commit is in flight that will clear it or is followed by one. -/
def rests (s : State) : Bool :=
  (s.clock.power != .sleep ||
      (s.store.commit == .idle && !s.clock.dozeDue && !s.clock.secondStep && !s.clock.tallyDue &&
        s.clock.sleep.isNone)) &&
    (!s.clock.hold ||
      match s.store.commit with
      | .idle => false
      | .inFlight f => f.afterHold
      | .inFlightPending _ => true)

/-! ## Nothing due -/

/-- No event is due that the commands have not taken yet. -/
def nothingDue (s : State) : Bool :=
  !s.inputs.ign.changeDue && !s.inputs.crk.changeDue && !s.inputs.clu.changeDue && !s.inputs.rvs.changeDue &&
    !confirmDue s && !lockDue s && !freshnessDue s && !s.clock.dozeDue && s.clock.lampCheck != some 0 &&
    !boundaryDue s.config.armed.lamp1 s.table.lamp1 && !boundaryDue s.config.armed.lamp2 s.table.lamp2 &&
    !s.clock.tallyDue && !s.clock.secondStep

/-- No channel is turning. -/
def shaftsStill (s : State) : Bool :=
  s.inputs.eng.st == .stalled && s.inputs.inp.st == .stalled && s.inputs.out.st == .stalled

/-! ## Settings in range (R141) -/

/-- A number lies from a lower to an upper end. -/
def within (lo hi n : Nat) : Bool := decide (lo ≤ n ∧ n ≤ hi)

/-- A SLOT item in range. -/
def slotInRange (c : SlotSettings) : Bool :=
  c.weights.toList.all (within 0 65535) && within 0 4294967295 c.advisory && within 0 65535 c.limit

/-- A CHANNEL item in range. -/
def channelInRange (c : ChannelSettings) : Bool :=
  within 1 255 c.ppr && within 0 65535 c.minInterval && within 10 2000 c.stallMs

/-- A LAMP item in range. -/
def lampInRange (c : LampSettings) : Bool := within 1 255 c.period && within 0 255 c.duty

/-- A KEY_CLASS item in range. -/
def keyInRange (c : KeyClass) : Bool :=
  within 0 4294967295 c.base && within 0 32 c.prefixLength && within 0 4294967295 (c.alternate.getD 0)

/-- A GEARS entry in range. -/
def gearInRange (g : GearEntry) : Bool := within 1 30000 g.nominal && within 1 2000 g.tolerance

/-- A CONDITIONS item in range. -/
def conditionsInRange (c : ConditionSettings) : Bool :=
  decide (-40 ≤ c.coldLimit ∧ c.coldLimit ≤ 150 ∧ -40 ≤ c.hotLimit ∧ c.hotLimit ≤ 150) &&
    within 0 32000 c.lowBatteryLimit && within 0 3 c.levelCold && within 0 3 c.levelHot && within 0 3 c.levelLoad &&
    within 0 3 c.levelLowBattery

/-- Every field of a set lies in the range that R141 gives it. -/
def inRange (c : Settings) : Bool :=
  c.slots.toList.all slotInRange && c.bands.toList.all (within 0 12000) &&
    (c.gears.toList.filterMap id).all gearInRange &&
    within 100 3000 c.engine.runSpeed && within 50 2999 c.engine.stallSpeed && within 100 5000 c.engine.confirmMs &&
    within 0 500 c.clutch.tolerance && within 50 2000 c.clutch.lockMs &&
    within 100 3000 c.shift.confirmMs && within 1 500 c.shift.oMinimum &&
    channelInRange c.chEng && channelInRange c.chInp && channelInRange c.chOut &&
    within 0 255 c.ign.debounceMs && within 0 255 c.crk.debounceMs && within 0 255 c.clu.debounceMs &&
    within 0 255 c.rvs.debounceMs && conditionsInRange c.conditions && lampInRange c.lamp1 && lampInRange c.lamp2 &&
    c.keys.toList.all keyInRange && within 10 3600 c.timing.checkpointS && within 10 65535 c.timing.dozeS

/-- The armed set, the staging set and the set of every image lie in their ranges. -/
def settingsInRange (s : State) : Bool :=
  inRange s.config.armed && inRange (s.config.staging.getD s.config.armed) &&
    (imagesOf s).all fun i => inRange i.armed

/-! ## Words that the statements use -/

/-- A frame of this KIND stands at the head of the receive queue, and a frame can be taken: the part is awake, no RESTART
has been taken, and an entry of the reply buffer is free (R178). -/
def atHead (kind : Byte) (f : Frame) (rest : List Frame) (s : State) : Prop :=
  s.link.queue = f :: rest ∧ f.kind = kind ∧ s.awake = true ∧ s.link.restartTaken = false ∧ s.link.entries < 4

/-- The frame has left the queue, and its reply stands ready, with the instant and the place in the order of taking by which
the arbiter picks (R178, R179, R184). -/
def replied (f : Frame) (rest : List Frame) (code : ReplyCode) (fields : List Field) (s : State) : State :=
  { s with
    link.queue := rest,
    link.ready := s.link.ready ++
      [⟨f.kind, f.tag, code, s.clock.time, fields, .nothing, s.inputs.captureUs, s.link.taken⟩],
    link.taken := s.link.taken + 1 }

/-- The frame has left the queue, and its reply waits for the commit that will hold the request's effect: the one that
starts now, or the one that follows the commit in flight (R169). -/
def replyWaits (f : Frame) (rest : List Frame) (form : DeferredForm) (after : AfterReply) (s : State) : State :=
  { s with
    link.queue := rest,
    link.deferred := s.link.deferred ++
      [⟨f.kind, f.tag, s.clock.time, form, after, if s.store.commit = .idle then .current else .next, s.link.taken⟩],
    link.taken := s.link.taken + 1 }

/-- The working state that no image holds, as every start-up leaves it at the end of its restore step: the channels
stalled without a last edge, the remainder, VBAT and the supply state (R17), the gear tracker (R40), the declared
condition (R44), no attempt open (R29), no stream, no report and nothing in transmission (R178, R180, R183). -/
def startsAfresh (t : State) : Prop :=
  (∀ c, t.inputs.channel c = ⟨.stalled, none, none, 0⟩) ∧ t.inputs.outRemainder = 0 ∧ t.inputs.vbat = 0 ∧
    t.inputs.supply = .normal ∧ t.duty.heldGear = 0 ∧ t.duty.runCount = 0 ∧ t.duty.gear = 0 ∧
    t.duty.coolant = none ∧ t.duty.fresh = false ∧ t.duty.freshTimer = 0 ∧ t.duty.load = .unladen ∧
    t.starts.attempt = none ∧ t.link.stream = none ∧ t.link.report = none ∧ t.link.tx = none

/-! ## Commands by what they may reach -/

/-- A command at which the part stops, starts up, or may start up: TRANSMIT_COMPLETE does at the RESTART reply (R163). -/
def startsUp : Instr → Bool
  | .powerOn | .powerLoss | .resetnLow | .resetnRise | .restoreStepEnd _ | .transmitComplete => true
  | _ => false

/-- A command within which an event of the vehicle may be taken: a speed change, a line's change, a timer's expiry, a
tally. ARM is one, by the stalls and expiries that its new values bring about at once (R30, R143). -/
def drives : Instr → Bool
  | .pulseEdge .. | .channelStall .. | .meterTick _ | .switchLineSample .. | .lineLevelChange .. | .confirmTimerExpiry
  | .tally _ | .settleEnd | .arm => true
  | _ => false

end Sys2Proof.Safety
end

