-- ==== Sys2Proof/Certificates/Slice0/Obligations.lean ====
section
/-! DEFINITION. The statements for the provers. Where a statement says what a command does, it gives the whole next state:
the present state with the named fields changed, and, round it, the shared operations of the manual that the command
ends in. Each of these (the ask for a commit, the transmit arbiter, the entry test of a sleep pending, the wear of one
event) has its own statement. -/

open Sys2Proof Sys2Proof.Machine Sys2Proof.Safety

/-- The block takes the command at the front of its queue, and idles on an empty queue (log 12). -/
def Obligations.StepRunsTheFrontCommand : Prop :=
  (∀ (s : State) (c : Instr) (rest : List Instr), s.pending = c :: rest →
    step s = exec c { s with pending := rest }) ∧
  ∀ s : State, s.pending = [] → step s = .next s

/-- No command stops the block, in any state, and none touches the commands that wait behind it. That a command whose
event cannot arise in the state it finds is no fault and no refusal, and answers a next state as well, is the
model's inference (log 1). -/
def Obligations.EveryCommandCompletes : Prop :=
  ∀ (c : Instr) (s : State), ∃ t, exec c s = .next t ∧ t.pending = s.pending

/-- What a command leaves unchanged in every state, whatever else it does: a field of State changes only at the commands
named for it. Commands that stop the part or start it up (`Safety.startsUp`) and the vehicle's events
(`Safety.drives`) are set apart; everything else is named here. -/
def Obligations.CommandsKeepWhatIsNotTheirs : Prop :=
  ∀ (c : Instr) (s t : State), exec c s = .next t → startsUp c = false →
    (c ∉ [.enterSetup, .setItem, .arm, .abandon, .loadDefaults] → t.config = s.config) ∧
    ((∀ r, c ≠ .commitComplete r) →
      t.store.areas = s.store.areas ∧ t.store.usable = s.store.usable ∧ t.store.faultSeen = s.store.faultSeen ∧
        t.hires.secured = s.hires.secured) ∧
    (drives c = false → c ∉ [.recordService, .installUnit, .clearAccounting] → t.table.slots = s.table.slots) ∧
    (c ∉ [.releaseHistory, .releaseIdle, .clearAccounting] → t.hires.settled = s.hires.settled) ∧
    (c ∉ [.releaseHistory, .clearAccounting] → t.hires.released = s.hires.released) ∧
    (c ≠ .openHire → t.hires.next = s.hires.next) ∧
    (drives c = false → c ∉ [.openHire, .closeHire, .releaseHistory, .clearAccounting] →
      t.hires.history = s.hires.history) ∧
    (drives c = false → c ∉ [.openHire, .closeHire, .suspendHire, .resumeHire] →
      t.hires.current = s.hires.current) ∧
    (drives c = false → c ∉ [.releaseIdle, .clearAccounting] → t.hires.idle = s.hires.idle) ∧
    (drives c = false → c ≠ .clearAccounting →
      t.starts.log = s.starts.log ∧ t.starts.life = s.starts.life ∧ t.starts.next = s.starts.next ∧
        t.duty.meters = s.duty.meters ∧ t.inputs.outPending = s.inputs.outPending) ∧
    (drives c = false →
      t.duty.engine = s.duty.engine ∧ t.starts.attempt = s.starts.attempt ∧
        (∀ l, (t.inputs.line l).level = (s.inputs.line l).level) ∧ t.inputs.captureUs = s.inputs.captureUs) ∧
    (c ≠ .declareCondition → t.duty.load = s.duty.load ∧ t.duty.coolant = s.duty.coolant) ∧
    ((∀ v, c ≠ .meterTick v) →
      t.clock.time = s.clock.time ∧ t.clock.phase = s.clock.phase ∧ t.inputs.vbat = s.inputs.vbat ∧
        t.inputs.supply = s.inputs.supply) ∧
    (c ≠ .noticeMask → ∀ f, (t.link.flags.get f).enabled = (s.link.flags.get f).enabled) ∧
    (c ≠ .clearFlags → ∀ f, (s.link.flags.get f).set.isSome = true →
      (t.link.flags.get f).set = (s.link.flags.get f).set) ∧
    (kindOfRequest c = none → c ∉ [.unknownRequest, .replyKindFrameDrop] → (∀ b, c ≠ .frameReceived b) →
      (∀ b, c ≠ .interByteTimeout b) → (∀ b l, c ≠ .frameDiscarded b l) → t.link.queue = s.link.queue) ∧
    t.clock.supplyOn = s.clock.supplyOn ∧ t.clock.resetnHigh = s.clock.resetnHigh ∧
    t.link.baudselHigh = s.link.baudselHigh

/-- The state right after reset meets every law that the steps keep. The state after reset is the model's choice (log
8). -/
def Obligations.LawsHoldAtReset : Prop :=
  conserves State.reset = true ∧ numbersHires State.reset = true ∧ withinCapacity State.reset = true ∧
    tracks State.reset = true ∧ rests State.reset = true ∧ settingsInRange State.reset = true

/-- R119, over every command: for each slot the slot total is the sum of its accounts, in the working state and in every
image that a restore could bring back. That no hire is open in SETUP (R101) is part of what is kept. -/
def Obligations.WearIsConserved : Prop :=
  ∀ s t : State, conserves s = true → step s = .next t → conserves t = true

/-- R122 over every command, the open hire's number and the next one being part of it (R103). -/
def Obligations.HireNumbersRunOn : Prop :=
  ∀ s t : State, numbersHires s = true → step s = .next t → numbersHires t = true

/-- The history holds at most 32 summaries, the start log 32 entries, the receive queue and the reply buffer four each
(R56, R122, R177, R178). -/
def Obligations.CapacitiesAreKept : Prop :=
  ∀ s t : State, withinCapacity s = true → step s = .next t → withinCapacity t = true

/-- Engine, clutch, attempt, timers and power state fit together (R20, R24, R31, R33, R47, R154): see `Safety.tracks`. -/
def Obligations.TrackingFitsTogether : Prop :=
  ∀ s t : State, tracks s = true → step s = .next t → tracks t = true

/-- No commit is in flight in SLEEP, and the transmission hold is set only while a commit is in flight that clears it or
is followed by one (R157, R162, R166): see `Safety.rests`. -/
def Obligations.SleepAndHoldAreSound : Prop :=
  ∀ s t : State, rests s = true → step s = .next t → rests t = true

/-- Every field of the armed set, of the staging set and of every image's set stays in its range (R139, R141). -/
def Obligations.SettingsStayInRange : Prop :=
  ∀ s t : State, settingsInRange s = true → step s = .next t → settingsInRange t = true

/-- Frames of R176 that arrive one behind another, in one delivery or with bytes gathered before, each after bytes that
are no SYNC: each is good and enters the receive queue in its turn, which cancels a sleep pending and reloads the
doze timer (R155, R157), or finds the queue full, is discarded and raises LINK_OVERRUN (R177). After a frame that
finds the queue full, hunting goes on behind the whole frame: the model's choice (log 37). A frame of which only a
first part has arrived stays gathered (R177), after bytes that are no SYNC, and changes nothing else; a later
delivery of the rest completes it. -/
def Obligations.FrameIsReceived : Prop :=
  (∀ (s : State) (bytes : List Byte) (frames : List (List Byte × Frame)) (tail : List Byte),
    s.sensing = true → (∀ p ∈ frames, syncByte ∉ p.1 ∧ p.2.payload.length ≤ 248) → syncByte ∉ tail →
    s.link.rx ++ bytes.map .byte =
      ((frames.flatMap fun p => p.1 ++ wireBytes p.2) ++ tail).map RxItem.byte →
    exec (.frameReceived bytes) s =
      .next (arbitrate
        (frames.foldl
          (fun t p =>
            if t.link.queue.length < 4 then
              reloadDoze (cancelSleep { t with link.queue := t.link.queue ++ [p.2] })
            else raise .linkOverrun .none t)
          { s with link.rx := [] }))) ∧
  (∀ (s : State) (noise part rest : List Byte) (f : Frame), s.sensing = true → s.link.rx = [] → syncByte ∉ noise →
    f.payload.length ≤ 248 → wireBytes f = part ++ rest → rest ≠ [] →
    exec (.frameReceived (noise ++ part)) s = .next (arbitrate { s with link.rx := part.map .byte }) ∧
    ∀ t : State, t.sensing = true → t.link.rx = part.map .byte →
      exec (.frameReceived rest) t =
        .next (arbitrate
          (if t.link.queue.length < 4 then
            reloadDoze (cancelSleep { t with link.rx := [], link.queue := t.link.queue ++ [f] })
          else raise .linkOverrun .none { t with link.rx := [] })))

/-- The four ways in which a gathered frame is discarded in silence (R177): more than 5 ms without a byte, a LEN above
248, a low stop bit, a CRC that does not match. Where the bytes after SYNC hold no other SYNC, nothing is left of
them. After each of these discards, hunting resumes at the byte that followed the discarded frame's SYNC: the bytes
already received, other SYNCs among them, are examined again as if they arrived without it. A good frame that stands
behind the LEN of a discarded one is thereby received. Outside RUN, DOZE and the settle step no byte is received
(R177). In SLEEP the start edge of the first byte is a wake source, and the bytes are discarded (R157, R159); in the
restore step, in a part that is held or without supply, nothing happens. -/
def Obligations.BytesThatAreNoFrameAreDropped : Prop :=
  (∀ (s : State) (len : Byte) (more : List Byte),
    s.sensing = true → s.link.rx = [] → syncByte ∉ len :: more →
    (more.length < len.toNat + 4 →
      exec (.interByteTimeout (syncByte :: len :: more)) s = .next (arbitrate s)) ∧
    exec (.interByteTimeout [syncByte]) s = .next (arbitrate s) ∧
    (248 < len.toNat → exec (.frameDiscarded (syncByte :: len :: more) false) s = .next (arbitrate s)) ∧
    (more.length ≤ len.toNat + 4 → len.toNat ≤ 248 →
      exec (.frameDiscarded (syncByte :: len :: more) true) s = .next (arbitrate s)) ∧
    ∀ (kind tag high low : Byte) (payload : List Byte),
      more = kind :: tag :: (payload ++ [high, low]) → len.toNat = payload.length → len.toNat ≤ 248 →
      high.toNat * 256 + low.toNat ≠ crc16 (len :: kind :: tag :: payload) →
      exec (.frameDiscarded (syncByte :: len :: more) false) s = .next (arbitrate s)) ∧
  (∀ (s : State) (len : Byte) (more : List Byte), s.sensing = true → s.link.rx = [] →
    (248 < len.toNat ∨ more.length < len.toNat + 4 →
      exec (.interByteTimeout (syncByte :: len :: more)) s = exec (.interByteTimeout (len :: more)) s) ∧
    (248 < len.toNat →
      exec (.frameReceived (syncByte :: len :: more)) s = exec (.frameReceived (len :: more)) s ∧
      exec (.frameDiscarded (syncByte :: len :: more) false) s = exec (.frameDiscarded (len :: more) false) s) ∧
    (248 < len.toNat ∨ more.length ≤ len.toNat + 4 →
      exec (.frameDiscarded (syncByte :: len :: more) true) s = exec (.frameDiscarded (len :: more) true) s) ∧
    (∀ (kind tag high low : Byte) (payload after : List Byte),
      more = kind :: tag :: (payload ++ high :: low :: after) → len.toNat = payload.length →
      high.toNat * 256 + low.toNat ≠ crc16 (len :: kind :: tag :: payload) →
      exec (.frameReceived (syncByte :: len :: more)) s = exec (.frameReceived (len :: more)) s ∧
      exec (.frameDiscarded (syncByte :: len :: more) false) s = exec (.frameDiscarded (len :: more) false) s) ∧
    (∀ (noise tail : List Byte) (f : Frame), more = noise ++ wireBytes f ++ tail → syncByte ∉ len :: noise →
      syncByte ∉ tail → f.payload.length ≤ 248 → 248 < len.toNat →
      exec (.frameReceived (syncByte :: len :: more)) s =
        .next (arbitrate
          (if s.link.queue.length < 4 then
            reloadDoze (cancelSleep { s with link.queue := s.link.queue ++ [f] })
          else raise .linkOverrun .none s)))) ∧
  (∀ (s : State) (bytes : List Byte) (stopLow : Bool),
    (s.clock.power = .restore ∨ s.clock.power = .held ∨ s.clock.power = .unpowered →
      exec (.frameReceived bytes) s = .next s ∧ exec (.interByteTimeout bytes) s = .next s ∧
        exec (.frameDiscarded bytes stopLow) s = .next s) ∧
    (s.clock.power = .sleep →
      let woken : State := { s with clock.waking := s.clock.waking || !bytes.isEmpty }
      exec (.frameReceived bytes) s = .next woken ∧ exec (.interByteTimeout bytes) s = .next woken ∧
        exec (.frameDiscarded bytes stopLow) s = .next woken))

/-- What READ_ITEM reads of a set in range, SET_ITEM stores: the same item, with the same values, in any other set
(section 11.7.5). Bit k of a slot map stands for slot k: the model's choice (log 34). -/
def Obligations.ItemsReadBackAsStored : Prop :=
  ∀ (i : ItemId) (c d : Settings) (secured : Nat), inRange c = true →
    (encodeFields secured (itemFields c i)).length = i.length ∧
    ∃ v, itemOfPayload (BitVec.ofNat 8 i.number :: encodeFields secured (itemFields c i)) = .ok (i, v) ∧
      storeItem c v = c ∧ itemFields (storeItem d v) i = itemFields c i

/-- The KIND table of section 11.7.2, both ways: each request has one KIND and no other command has one. The totals of
section 11.7.4, whatever the records hold and whichever hire numbers are secured. The status record has no field for
a speed (log 33). The fields of the records of section 11.7.4, in order, after the status record's: hire record,
summary, start entry, notice and stream report, and the detail of a notice. The numbers of every enumeration of
section 11.7.1, those of a summary's class and close cause and of an attempt's class standing in the records above
and the sleep outcome in the replies of SLEEP; the bits of the condition set, the slot status and the two flag
words; the outcome bytes of R179; and the flag numbers of section 11.3. The bytes of each kind of field (section
11.7.1): values most significant byte first, temperatures in two's complement, an optional field with its presence
byte, and zero bytes when absent. A hire number leaves the part only while it is below the secured mark (R104,
section 11.7.1). -/
def Obligations.KindsAndRecordsAreLaidOut : Prop :=
  ((∀ (kind : Byte) (i : Instr), requestOfKind kind = some i ↔ kindOfRequest i = some kind) ∧
  ∀ kind : Byte, isReplyKind kind = true → requestOfKind kind = none) ∧
  (∀ (n : Nat) (s : State) (h : HireRecord) (m : Summary) (e : StartEntry) (f : Flag) (r : Raised),
    (encodeFields n (statusFields s)).length = 27 ∧ (encodeFields n (hireFields h)).length = 123 ∧
    (encodeFields n (summaryFields m)).length = 137 ∧ (encodeFields n (startEntryFields e)).length = 23 ∧
    (encodeFields n (noticeFields f r)).length = 11 ∧ (encodeFields n (reportFields s)).length = 18) ∧
  (let eight := fun (e : Eight Nat) => [(0 : Slot), 1, 2, 3, 4, 5, 6, 7].map fun k => Field.num 4 (e.get k)
  let recovery := fun (r : Option (Eight Nat)) =>
    match r with
    | some e => Field.num 1 1 :: eight e
    | none => .num 1 0 :: List.replicate 8 (.num 4 0)
  let counters := fun (c : HireCounters) =>
    [c.runTallies, c.starts.coldOk, c.starts.warmOk, c.starts.failed, c.starts.reEngage, c.starts.push, c.stalls,
      c.clutchEngagements, c.gearEngagements, c.outputRevolutions].map (Field.num 4)
  (∀ h : HireRecord,
    hireFields h =
      [.hireNo (some h.number), .num 4 h.keyId, .num 1 h.cls.code, .num 2 h.generation, .time h.openTime,
        .num 1 (if h.suspended then 2 else 1)] ++ eight h.main ++ recovery h.recovery ++ counters h.counters) ∧
  (∀ m : Summary,
    summaryFields m =
      [.hireNo (some m.first), .hireNo (some m.last), .num 4 m.keyId,
        .num 1 (match m.cls with
          | .one .customer => 0
          | .one .staff => 1
          | .one .workshop => 2
          | .mixed => 3),
        .num 2 m.generation, .time m.openTime, .time m.closeTime,
        .num 1 (match m.cause with
          | .hostClose => 0
          | .superseded => 1
          | .ignitionOff => 2),
        .num 4 m.merged] ++ eight m.main ++ recovery m.recovery ++ counters m.counters) ∧
  (∀ e : StartEntry,
    startEntryFields e =
      [.num 4 e.number, .time e.openTime,
        .num 1 (match e.cls with
          | .coldOk => 0
          | .warmOk => 1
          | .failed => 2
          | .reEngage => 3
          | .push => 4),
        .num 2 e.tenths, .opt 2 e.batteryMin, .optTemp e.coolant, .hireNo e.hire]) ∧
  (∀ (f : Flag) (d : Detail) (t : MeterTime),
    noticeFields f ⟨d, t⟩ =
      [.num 1 f.number,
        (match d with
          | .none => .opt 4 none
          | .index k => .opt 4 (some k)
          | .hire n => .hireNo n),
        .time t]) ∧
  (∀ s : State,
    reportFields s =
      [.time s.clock.time, .num 1 s.duty.engine.code, .num 1 s.duty.clutch.code, .num 1 s.duty.gear.val,
        .num 2 s.inputs.eng.speed, .num 2 s.inputs.inp.speed, .num 2 s.inputs.out.speed, .num 2 s.inputs.vbat,
        .num 1 s.conditions.code, .num 1 (hireStateCode s.hires.current)])) ∧
  (([Power.run, .doze].map Power.code = [0, 1] ∧ [false, true].map boolCode = [0, 1] ∧
    [Engine.off, .ready, .cranking, .confirming, .running, .runDown].map Engine.code = [0, 1, 2, 3, 4, 5] ∧
    [Clutch.idle, .opened, .slipping, .locked].map Clutch.code = [0, 1, 2, 3] ∧
    [HireClass.customer, .staff, .workshop].map HireClass.code = [0, 1, 2] ∧
    (∀ h : HireRecord, hireStateCode none = 0 ∧ hireStateCode (some h) = if h.suspended then 2 else 1) ∧
    [Law.none, .hour, .slip, .rev, .start, .shift].map Law.code = [0, 1, 2, 3, 4, 5] ∧
    [LoadState.unladen, .laden, .towing].map LoadState.code = [0, 1, 2] ∧
    [ActiveEdge.rising, .falling, .both].map ActiveEdge.code = [0, 1, 2] ∧
    [Polarity.activeHigh, .activeLow].map Polarity.code = [0, 1] ∧
    (∀ f : Flight, [Commit.idle, .inFlight f, .inFlightPending f].map Commit.code = [0, 1, 2]) ∧
    [RestoreOutcome.image, .imageAfterFault, .blank].map RestoreOutcome.code = [0, 1, 2]) ∧
  (∀ c : Conditions,
    c.code = (if c.cold then 1 else 0) + (if c.hot then 2 else 0) + (if c.load then 4 else 0) +
      if c.lowBattery then 8 else 0) ∧
  (∀ m : SlotMeters,
    m.statusCode = (if m.advisory then 1 else 0) + (if m.due then 2 else 0) + if m.frozen then 4 else 0) ∧
  (∀ (t : FlagTable) (k : Nat),
    (t.setWord.testBit k = true ↔ ∃ f : Flag, f.number = k + 1 ∧ (t.get f).set.isSome = true) ∧
    (t.maskWord.testBit k = true ↔ ∃ f : Flag, f.number = k + 1 ∧ (t.get f).enabled = true)) ∧
  [ReplyCode.done, .doneNotRetained, .refusedLength, .refusedUnknown, .refusedRange, .refusedSetupActive,
      .refusedNotInSetup, .refusedHireOpen, .refusedNoHire, .refusedInvalidConfig, .refusedIgnition,
      .refusedEngine].map ReplyCode.code =
    [0x00, 0x01, 0x10, 0x11, 0x12, 0x13, 0x14, 0x15, 0x16, 0x17, 0x18, 0x19] ∧
  [Flag.startLogged, .slotAdvisory, .slotDue, .slotFrozen, .hireAutoClosed, .historyNearFull, .historyMerged,
      .conditionStale, .supplyWarning, .retentionFault, .restored, .linkOverrun, .streamEnded].map Flag.number =
    [1, 2, 3, 4, 5, 6, 7, 8, 9, 10, 11, 12, 13]) ∧
  ((∀ w n : Nat,
    (bytesOf w n).length = w ∧ (n < 256 ^ w → (bytesOf w n).foldl (fun v b => v * 256 + b.toNat) 0 = n)) ∧
  ∀ (n w v : Nat) (t : MeterTime) (c : Int),
    (Field.num w v).encode n = bytesOf w v ∧ (Field.time t).encode n = bytesOf 4 t.seconds ++ bytesOf 1 t.ticks ∧
    (Field.opt w (some v)).encode n = 0x01 :: bytesOf w v ∧
    (Field.opt w none).encode n = 0x00 :: List.replicate w 0x00 ∧
    (Field.optTime (some t)).encode n = 0x01 :: (bytesOf 4 t.seconds ++ bytesOf 1 t.ticks) ∧
    (Field.optTime none).encode n = [0x00, 0x00, 0x00, 0x00, 0x00, 0x00] ∧
    (-32768 ≤ c → c < 32768 →
      (Field.temp c).encode n = bytesOf 2 (if c < 0 then c + 65536 else c).toNat ∧
      (Field.optTemp (some c)).encode n = 0x01 :: bytesOf 2 (if c < 0 then c + 65536 else c).toNat) ∧
    (Field.optTemp none).encode n = [0x00, 0x00, 0x00]) ∧
  (∀ (secured : Nat) (n : Option Nat),
    (Field.hireNo n).encode secured =
      match n with
      | some k => if k < secured then 0x01 :: bytesOf 4 k else [0x00, 0x00, 0x00, 0x00, 0x00]
      | none => [0x00, 0x00, 0x00, 0x00, 0x00])

/-- A loss of power, or a low level on RESETn with the supply on, stops the part wherever it stands (R160, R173): the
area of a commit in flight holds no valid image, the others keep theirs; queues, replies, stream, frame in
transmission and sleep pending are lost; both lamps are driven low and ATTN is released. That the area of the commit
in flight is unreadable, and not still the image before, is the model's choice (log 7). Start-up begins at its
restore step when the supply is on and RESETn high, at the rise of whichever comes last; the image areas stand
(R160). A rise that leaves the other off starts nothing. The areas stand when no commit was in flight (log 7). -/
def Obligations.PartStopsAndStartsUp : Prop :=
  (∀ (s : State) (c : Instr), s.clock.supplyOn = true → c = .powerLoss ∨ c = .resetnLow →
    ∃ t, exec c s = .next t ∧
      t.clock.power = (if c = .powerLoss then .unpowered else .held) ∧
      t.clock.supplyOn = (c == .resetnLow) ∧ t.clock.resetnHigh = (s.clock.resetnHigh && c == .powerLoss) ∧
      (∀ a, t.store.areas.get a =
        match s.store.commit with
        | .idle => s.store.areas.get a
        | .inFlight f | .inFlightPending f => if a = f.area then .unreadable else s.store.areas.get a) ∧
      t.store.commit = .idle ∧ t.link.queue = [] ∧ t.link.rx = [] ∧ t.link.deferred = [] ∧ t.link.ready = [] ∧
      t.link.tx = none ∧ t.link.stream = none ∧ t.clock.sleep = none ∧ t.clock.hold = false ∧
      t.starts.attempt = none ∧ t.config.staging = none ∧
      (∀ m, t.lampHigh m = false) ∧ t.attnLow = false ∧ t.pending = s.pending) ∧
  (∀ s : State,
    (s.clock.supplyOn = false →
      ∃ t, exec .powerOn s = .next t ∧ t.clock.supplyOn = true ∧ t.clock.resetnHigh = s.clock.resetnHigh ∧
        t.clock.power = (if s.clock.resetnHigh then .restore else .held) ∧
        (s.store.commit = .idle → t.store.areas = s.store.areas) ∧ t.pending = s.pending) ∧
    (s.clock.resetnHigh = false →
      ∃ t, exec .resetnRise s = .next t ∧ t.clock.resetnHigh = true ∧ t.clock.supplyOn = s.clock.supplyOn ∧
        t.clock.power = (if s.clock.supplyOn then .restore else s.clock.power) ∧
        (s.store.commit = .idle → t.store.areas = s.store.areas) ∧ t.pending = s.pending))

/-- The restore step ends with the newest of the valid images, those whose check word is the one computed over their
bytes (R164), across the wrap of the sequence numbers, the lower area at a tie (R174): every owner of retained state
takes its values from it, the Retention Store its own state, and meter time resumes a checkpoint period and a second
beyond the snapshot (R161). The receive queue and the reply buffer are empty and every flag is clear (R177, R178,
R180). The layout of an image's bytes is free (log 7). The working state is as every start-up leaves it: channels,
VBAT and supply (R17), gear tracker (R40), coolant and load (R44), no stream, no report and nothing in transmission.
Numbers exactly 2,147,483,648 apart are in no order; the lower area is then the model's choice (log 9). -/
def Obligations.RestoreTakesTheNewestImage : Prop :=
  ∀ (s : State) (high : Bool) (a : Area) (i : Image),
    s.clock.power = .restore → s.store.areas.get a = .image i →
    i.check = crc16 (Config.imageBytes i.toImageFields) →
    (∀ b j, s.store.areas.get b = .image j → j.check = crc16 (Config.imageBytes j.toImageFields) →
      i.sequence < 4294967296 ∧ j.sequence < 4294967296 ∧
      ¬ (1 ≤ (j.sequence + 4294967296 - i.sequence) % 4294967296 ∧
          (j.sequence + 4294967296 - i.sequence) % 4294967296 ≤ 2147483647) ∧
      (b < a → 1 ≤ (i.sequence + 4294967296 - j.sequence) % 4294967296 ∧
        (i.sequence + 4294967296 - j.sequence) % 4294967296 ≤ 2147483647)) →
    ∃ t, exec (.restoreStepEnd high) s = .next t ∧ t.clock.power = .settle ∧
      t.config = { armed := i.armed, staging := none, generation := i.generation } ∧
      t.table.slots = i.slots ∧
      t.hires =
        { current := i.openHire, idle := i.idle, settled := i.settled, history := i.history, released := i.released,
          next := i.nextHire, secured := i.nextHire } ∧
      t.starts = { attempt := none, life := i.lifeStarts, log := i.startLog, next := i.nextAttempt } ∧
      t.duty.meters = i.meters ∧ t.inputs.outPending = i.outPending ∧
      t.store.areas = s.store.areasAtStop ∧ (∀ b, t.store.usable.get b = true) ∧ t.store.lastArea = some a ∧
      t.store.lastSequence = i.sequence ∧ t.store.lastStart = some i.time ∧ t.store.commit = .idle ∧
      t.store.faultSeen = i.faultSeen ∧
      t.clock.time =
        ⟨min (i.time.seconds + i.armed.timing.checkpointS + 1) 4294967295, i.time.ticks⟩ ∧
      t.clock.phase = i.time.ticks % 25 ∧ t.clock.outcome = (if i.faultSeen then .imageAfterFault else .image) ∧
      t.link.queue = [] ∧ t.link.ready = [] ∧ t.link.deferred = [] ∧ t.link.baudselHigh = high ∧
      (∀ f, t.link.flags.get f = ⟨none, true, false⟩) ∧ startsAfresh t ∧ t.pending = s.pending

/-- R175: with no valid image, the areas holding none or images whose check word is wrong (R164), the part starts blank,
and the end of a settle step in which nothing else happened raises RESTORED with the outcome BLANK and starts the
first commit, to area 0 with sequence number 1. That the areas of State.reset hold no image is the model's choice of
the state after reset (log 8). The working state is as every start-up leaves it: channels, VBAT and supply (R17),
gear tracker (R40), coolant and load (R44), no stream, no report and nothing in transmission. -/
def Obligations.BlankStart : Prop :=
  (∀ a, State.reset.store.areas.get a = .unreadable) ∧
  ∀ (s : State) (high : Bool), s.clock.power = .restore →
    (∀ a i, s.store.areas.get a = .image i → i.check ≠ crc16 (Config.imageBytes i.toImageFields)) →
    ∃ u t, exec (.restoreStepEnd high) s = .next u ∧
      u.config = { armed := factorySettings, staging := none, generation := 0 } ∧
      u.hires.current = none ∧ u.hires.next = 1 ∧ u.hires.secured = 1 ∧ u.hires.released = 0 ∧ u.hires.history = [] ∧
      (∀ k, u.hires.idle.get k = 0 ∧ u.hires.settled.get k = 0 ∧
        u.table.slots.get k = ⟨0, 0, 0, 0, false, false, false, 0, none, none⟩) ∧
      u.starts.next = 1 ∧ u.starts.log = [] ∧ u.starts.life = ⟨0, 0, 0, 0, 0⟩ ∧
      u.duty.meters = ⟨0, 0, 0, 0, 0, ⟨0, 0, 0, 0, 0, 0, 0⟩, 0⟩ ∧ u.inputs.outPending = 0 ∧
      (∀ a, u.store.usable.get a = true) ∧ u.store.lastArea = none ∧ u.store.lastSequence = 0 ∧
      u.store.lastStart = none ∧ u.store.commit = .idle ∧ u.store.faultSeen = false ∧ u.clock.time = ⟨0, 0⟩ ∧
      u.starts.attempt = none ∧ startsAfresh u ∧
      exec .settleEnd u = .next t ∧
      (t.link.flags.get .restored).set = some ⟨.index RestoreOutcome.blank.code, ⟨0, 0⟩⟩ ∧
      ∃ f, t.store.commit = .inFlight f ∧ f.area = 0 ∧ f.image.sequence = 1

/-- The end of the settle step (R161): the lines take their settled levels (R18), the engine and the clutch are decided
from them and the speeds (R29, R36), the power state from IGN, the lamps are formed (R94, R99), RESTORED is raised,
and the transmission hold is set and asks for its commit (R162), whatever the commit state: a SUPPLY_WARNING of the
settle step may have one in flight. That a line without a sample settles as inactive is the model's choice (log 21).
A commit started before the hold is set, also at the same instant, does not serve it: the model's choice (log 45). -/
def Obligations.SettleEndDecides : Prop :=
  ∀ s : State, s.clock.power = .settle →
    ∃ u, exec .settleEnd s = .next (arbitrate (askCommit u)) ∧
      (let settled := fun (v : Line) => { v with level := v.sample.getD false, count := 0, changeDue := false }
       u.inputs =
        { s.inputs with
          ign := settled s.inputs.ign, crk := settled s.inputs.crk, clu := settled s.inputs.clu,
          rvs := settled s.inputs.rvs }) ∧
      (let engine : Engine :=
        if !u.inputs.ign.level then .off
        else if s.config.armed.engine.runSpeed ≤ s.inputs.eng.speed then .running
        else if u.inputs.crk.level then .cranking else .ready
       let clutch : Clutch :=
        if engine = .running then (if u.inputs.clu.level then .opened else .slipping) else .idle
       u.duty =
        { s.duty with
          engine := engine, confirmTimer := none, clutch := clutch,
          lockTimer := if clutch = .slipping ∧ s.slip ≤ s.config.armed.clutch.tolerance then some 0 else none } ∧
       u.starts =
        { s.starts with
          attempt := if engine = .cranking then some (newAttempt .crank s) else s.starts.attempt }) ∧
      u.clock =
        { s.clock with
          power := if u.inputs.ign.level then .run else .doze,
          doze := if u.inputs.ign.level then none else some (s.config.armed.timing.dozeS * 250), dozeDue := false,
          hold := true } ∧
      (∀ m, u.table.lamp m =
        (if (s.config.armed.lamp m).anySlot s.table.slots (·.due) then ⟨.steady, 0, true⟩
          else if (s.config.armed.lamp m).anySlot s.table.slots (·.advisory) then
            ⟨.blink, 0, decide (0 < (s.config.armed.lamp m).duty * 5)⟩
          else ⟨.dark, 0, false⟩)) ∧
      u.table.slots = s.table.slots ∧
      u.link =
        { s.link with
          flags := s.link.flags.set .restored
            ((s.link.flags.get .restored).raised (.index s.clock.outcome.code) s.clock.time) } ∧
      u.hires = s.hires ∧ u.config = s.config ∧ u.store = s.store ∧ u.freePicks = s.freePicks ∧ u.pending = s.pending

/-- In SLEEP a transition of the IGN or CRK pin to its active level, by the line's polarity, or a start edge on RX
starts a wake (R14, R159); a transition to the inactive level, or a further source, changes nothing but the pin as
last seen (the model's own field, log 21). The completion of the wake: DOZE with the doze timer loaded, the lamps
formed afresh, and the hold with its commit exactly when the checkpoint period has passed since the last commit
start (R162). Outside SLEEP no source is taken. -/
def Obligations.WakeFollowsItsSource : Prop :=
  ∀ (s : State) (high : Bool),
    (s.clock.power = .sleep →
      exec (.wakeSource (.ignPin high)) s =
        .next
          { s with
            inputs.ign.pinHigh := high,
            clock.waking :=
              s.clock.waking || (if s.config.armed.ign.polarity = .activeHigh then high else !high) } ∧
      exec (.wakeSource (.crkPin high)) s =
        .next
          { s with
            inputs.crk.pinHigh := high,
            clock.waking :=
              s.clock.waking || (if s.config.armed.crk.polarity = .activeHigh then high else !high) } ∧
      exec (.wakeSource .rxStartEdge) s = .next { s with clock.waking := true }) ∧
    (∀ w, s.clock.power ≠ .sleep → exec (.wakeSource w) s = .next s) ∧
    (s.clock.power = .sleep → s.clock.waking = true →
      let lamp := fun (c : LampSettings) =>
        (if c.anySlot s.table.slots (·.due) then ⟨.steady, 0, true⟩
        else if c.anySlot s.table.slots (·.advisory) then ⟨.blink, 0, decide (0 < c.duty * 5)⟩
        else ⟨.dark, 0, false⟩ : Lamp)
      let up : State :=
        { s with
          clock.power := .doze, clock.waking := false, clock.doze := some (s.config.armed.timing.dozeS * 250),
          clock.dozeDue := false,
          table.lamp1 := lamp s.config.armed.lamp1, table.lamp2 := lamp s.config.armed.lamp2 }
      let due := match s.store.lastStart with
        | none => true
        | some t => decide (s.config.armed.timing.checkpointS ≤ s.clock.time.seconds - t.seconds)
      exec .wakeComplete s =
        .next (arbitrate (if due then askCommit { up with clock.hold := true } else up))) ∧
    (s.clock.power ≠ .sleep ∨ s.clock.waking = false → exec .wakeComplete s = .next s)

/-- Time that passes to an instant of the tick with no event due and no stall in the span changes the capture timer
alone (R1), and ends the instant at which a doze expiry may just have set a sleep pending (R155). Instants are the
model's, in µs after the last tick step (log 11). Time that passes takes first what is due and has not been
commanded, and then the stalls overdue, each as its command would, with the arbiter after each (R184); their order
is the model's choice (logs 10, 38, 42). R152 and R153 on meter time and the tally phase, in every power state in
which time runs: a tick adds one, the seconds rise every 250 ticks, and meter time stops at its top value. -/
def Obligations.TimePasses : Prop :=
  (∀ (s : State) (us : Nat), s.ticking = true → nothingDue s = true →
    (∀ c, (s.inputs.channel c).st ≠ .stalled → ∀ e, (s.inputs.channel c).lastEdge = some e →
      min (s.inputs.captureUs + (min us 3999 - s.inputs.tickUs) - e) 16777215 ≤
        (s.config.armed.channel c).stallMs * 1000) →
    passTo us s =
      (if min us 3999 ≤ s.inputs.tickUs then s
      else
        { s with
          inputs.captureUs := s.inputs.captureUs + (min us 3999 - s.inputs.tickUs), inputs.tickUs := min us 3999,
          clock.sleep := s.clock.sleep.map fun p => { p with justSet := false } })) ∧
  ((∀ (s : State) (us : Nat), s.ticking = true → 0 < us →
    let run := fun (t : State) (c : Instr) =>
      match exec c t with
      | .next u => u
      | _ => t
    let stall := fun (t : State) =>
      match mostOverdue t with
      | none => t
      | some c => run t (.channelStall c 0 false)
    let d :=
      [Instr.lineLevelChange .ign false, .lineLevelChange .crk false, .lineLevelChange .clu false,
        .lineLevelChange .rvs false, .confirmTimerExpiry, .lockTimerExpiry, .freshnessExpiry, .dozeTimerExpiry,
        .lampCheckExpiry, .blinkPhaseBoundary .lamp1, .blinkPhaseBoundary .lamp2, .tally ⟨true, false⟩,
        .checkpointDue].foldl run s
    passTime us s =
      stall (stall (stall
        { d with
          inputs.captureUs := d.inputs.captureUs + us, inputs.tickUs := d.inputs.tickUs + us,
          clock.sleep := d.clock.sleep.map fun p => { p with justSet := false } }))) ∧
  ∀ s : State,
    let age := fun (c : Shaft) =>
      match (s.inputs.channel c).lastEdge with
      | some e =>
        if (s.inputs.channel c).st = .stalled then 0
        else min (s.inputs.captureUs - e) 16777215 - (s.config.armed.channel c).stallMs * 1000
      | none => 0
    (mostOverdue s = none ↔ ∀ c, age c = 0) ∧ ∀ c, mostOverdue s = some c → ∀ d, age d ≤ age c) ∧
  (∀ (s : State) (v : Nat), s.ticking = true →
    ∃ t, exec (.meterTick v) s = .next t ∧
      t.clock.time =
        (if s.clock.time = ⟨4294967295, 249⟩ then s.clock.time
          else if s.clock.time.ticks < 249 then ⟨s.clock.time.seconds, s.clock.time.ticks + 1⟩
          else ⟨s.clock.time.seconds + 1, 0⟩) ∧
      t.clock.phase = (if s.clock.phase < 24 then s.clock.phase + 1 else 0) ∧
      t.pending = s.pending)

/-- R3 and R2: at the instant `now` to which time has passed, an edge is rejected that follows the last accepted edge by
less than the minimum interval, and a transition that the active-edge setting disregards has no effect at all. An
accepted OUT edge in SLEEP (R9): it becomes the last accepted edge and counts, the channel stays STALLED, and with
wake-on-shaft on it is a wake source (R159). ENG and INP edges are not seen. Instants are as in log 11. -/
def Obligations.EdgesAreRejectedOrCountedAsleep : Prop :=
  (∀ (s now : State) (c : Shaft) (tr : Transition) (us : Nat) (first : Bool),
    s.ticking = true → now = passTo us s →
    ((now.config.armed.channel c).edge = .rising ∧ tr = .falling ∨
      (now.config.armed.channel c).edge = .falling ∧ tr = .rising ∨
      ∃ e, (now.inputs.channel c).lastEdge = some e ∧
        min (now.inputs.captureUs - e) 16777215 < (now.config.armed.channel c).minInterval) →
    exec (.pulseEdge c tr us first) s = .next (arbitrate now)) ∧
  (∀ (s now : State) (c : Shaft) (tr : Transition) (us : Nat) (first : Bool),
    s.ticking = true → now = passTo us s → now.clock.power = .sleep →
    (c ≠ .out → exec (.pulseEdge c tr us first) s = .next now) ∧
    ((now.config.armed.chOut).sees tr = true → now.inputs.out.accepts now.config.armed.chOut now.inputs.captureUs = true →
      exec (.pulseEdge .out tr us first) s =
        .next
          { now with
            inputs :=
              countRevolution { now.inputs with out.lastEdge := some now.inputs.captureUs } now.config.armed.chOut.ep,
            clock.waking := now.clock.waking || now.config.armed.timing.wakeOnShaft }))

/-- An accepted edge while the part is awake or settles (R3, R4, R6): the channel's new state, period and speed; a
changed speed is delivered while awake, one of ENG to the engine and the clutch in the order given (log 3), one of
INP to the clutch. On OUT the edge counts towards a revolution (R7), and in DOZE reloads the doze timer, or cancels
a sleep that a doze expiry of the same instant has just set pending (R155). -/
def Obligations.EdgesAreAccepted : Prop :=
  ∀ (s now : State) (c : Shaft) (tr : Transition) (us : Nat) (first : Bool),
    s.ticking = true → now = passTo us s → now.sensing = true →
    (now.config.armed.channel c).sees tr = true →
    (∀ e, (now.inputs.channel c).lastEdge = some e →
      (now.config.armed.channel c).minInterval ≤ min (now.inputs.captureUs - e) 16777215) →
    ((now.inputs.channel c).st ≠ .stalled → (now.inputs.channel c).lastEdge.isSome = true) →
    let old := now.inputs.channel c
    let cfg := now.config.armed.channel c
    let ep := if cfg.edge = .both then 2 * cfg.ppr else cfg.ppr
    let period := max 1 (min (now.inputs.captureUs - old.lastEdge.getD 0) 16777215)
    let new : Channel :=
      if old.st = .stalled then ⟨.starting, some now.inputs.captureUs, none, 0⟩
      else ⟨.turning, some now.inputs.captureUs, some period, min (60000000 / (period * ep)) 12000⟩
    let put : State := { now with inputs := now.inputs.setChannel c new }
    let quiet := new.speed = old.speed ∨ now.awake = false
    (c = .eng →
      exec (.pulseEdge c tr us first) s =
        .next (arbitrate
          (if quiet then put
          else if first then engineSpeed (clutchSpeed put) else clutchSpeed (engineSpeed put)))) ∧
    (c = .inp →
      exec (.pulseEdge c tr us first) s = .next (arbitrate (if quiet then put else clutchSpeed put))) ∧
    (c = .out →
      let whole := ep ≤ now.inputs.outRemainder + 1
      let counted : State :=
        { put with
          inputs.outRemainder := if whole then 0 else now.inputs.outRemainder + 1,
          inputs.outPending :=
            if whole then min (now.inputs.outPending + 1) 16777215 else now.inputs.outPending }
      exec (.pulseEdge c tr us first) s =
        .next (arbitrate
          (if now.clock.sleep.any (·.justSet) then cancelSleep counted
          else if now.clock.power = .doze then
            { counted with clock.doze := some (now.config.armed.timing.dozeS * 250), clock.dozeDue := false }
          else counted)))

/-- R5: a channel that is not stalled stalls when its elapsed time reaches its stall time: no period, speed 0, the last
accepted edge kept; a speed that was above 0 is delivered as for an edge while awake (R6, log 3). Before that time,
and in STALLED, nothing happens. -/
def Obligations.ChannelsStall : Prop :=
  ∀ (s now : State) (c : Shaft) (us : Nat) (first : Bool) (e : Nat),
    s.ticking = true → now = passTo us s → (now.inputs.channel c).lastEdge = some e →
    ((now.inputs.channel c).st ≠ .stalled → now.sensing = true →
      (now.config.armed.channel c).stallMs * 1000 ≤ min (now.inputs.captureUs - e) 16777215 →
      let put : State := { now with inputs := now.inputs.setChannel c ⟨.stalled, some e, none, 0⟩ }
      exec (.channelStall c us first) s = .next (arbitrate (takeStall c first now)) ∧
      takeStall c first now =
        (if (now.inputs.channel c).speed = 0 ∨ now.awake = false ∨ c = .out then put
        else if c = .inp then clutchSpeed put
        else if first then engineSpeed (clutchSpeed put) else clutchSpeed (engineSpeed put))) ∧
    ((now.inputs.channel c).st = .stalled ∨
        min (now.inputs.captureUs - e) 16777215 < (now.config.armed.channel c).stallMs * 1000 →
      exec (.channelStall c us first) s = .next (arbitrate now) ∧ takeStall c first now = now)

/-- A speed change event of ENG reaches the engine with the new value of E (R22, R25, R26, R27), in every engine state,
each as a whole next state: the entry test from READY, a lost confirmation, whose attempt closes as FAILED, a stall,
which closes a re-engage attempt as RE_ENGAGE, counts one stall and enters READY, the end of a run-down; otherwise
nothing. An entry to READY (R22), from whatever state, with its entry test: CRANKING with an attempt of kind CRANK
when CRK is active, CONFIRMING with one of kind PUSH and the confirm timer when E is at or above the run speed, else
READY; the clutch in IDLE from a turning state, and out of IDLE at CONFIRMING (R31). -/
def Obligations.EngineFollowsItsSpeed : Prop :=
  (∀ s : State,
    let run := s.config.armed.engine.runSpeed
    let stall := s.config.armed.engine.stallSpeed
    let e := s.inputs.eng.speed
    let closed := closeAttempt .reEngage s
    (s.duty.engine = .ready → run ≤ e → s.inputs.crk.level = false →
      engineSpeed s =
        { s with
          duty.engine := .confirming, duty.confirmTimer := some 0,
          duty.clutch := if s.inputs.clu.level then .opened else .slipping,
          duty.lockTimer :=
            if s.inputs.clu.level = false ∧ s.slip ≤ s.config.armed.clutch.tolerance then some 0 else none,
          starts.attempt := some (newAttempt .push s) }) ∧
    (s.duty.engine = .confirming → e < run → engineSpeed s = enterReady (closeAttempt .failed s)) ∧
    (s.duty.engine = .running → e < stall →
      engineSpeed s =
        enterReady
          { closed with
            duty.meters.stalls := min (s.duty.meters.stalls + 1) 4294967295,
            hires.current := closed.hires.current.map fun h =>
              { h with counters := { h.counters with stalls := min (h.counters.stalls + 1) 4294967295 } } }) ∧
    (s.duty.engine = .runDown → e < stall →
      engineSpeed s =
        { s with duty.engine := .off, duty.confirmTimer := none, duty.clutch := .idle, duty.lockTimer := none }) ∧
    (s.duty.engine = .off ∨ s.duty.engine = .cranking ∨ s.duty.engine = .ready ∧ (e < run ∨ s.inputs.crk.level = true) ∨
        s.duty.engine = .confirming ∧ run ≤ e ∨
        (s.duty.engine = .running ∨ s.duty.engine = .runDown) ∧ stall ≤ e →
      engineSpeed s = s)) ∧
  (∀ s : State,
    let turning := s.duty.engine = .confirming ∨ s.duty.engine = .running ∨ s.duty.engine = .runDown
    let ready : State :=
      { s with
        duty.engine := .ready, duty.confirmTimer := none,
        duty.clutch := if turning then .idle else s.duty.clutch,
        duty.lockTimer := if turning then none else s.duty.lockTimer }
    (s.inputs.crk.level = true →
      enterReady s = { ready with duty.engine := .cranking, starts.attempt := some (newAttempt .crank s) }) ∧
    (s.inputs.crk.level = false → s.config.armed.engine.runSpeed ≤ s.inputs.eng.speed →
      enterReady s =
        { ready with
          duty.engine := .confirming, duty.confirmTimer := some 0,
          duty.clutch := if s.inputs.clu.level then .opened else .slipping,
          duty.lockTimer :=
            if s.inputs.clu.level = false ∧ s.slip ≤ s.config.armed.clutch.tolerance then some 0 else none,
          starts.attempt := some (newAttempt .push s) }) ∧
    (s.inputs.crk.level = false → s.inputs.eng.speed < s.config.armed.engine.runSpeed → enterReady s = ready))

/-- A speed change event of E or I reaches the clutch (R31 to R34): in SLIPPING it starts, keeps or cancels the lock
timer; in LOCKED a slip above the tolerance is one lock loss; in IDLE and OPEN it does nothing. A change of CLU
(R32) and of RVS (R12): the clutch opens, or is released and counts one engagement; a change of RVS reaches no block
at once. -/
def Obligations.ClutchFollowsSlipAndPedal : Prop :=
  (∀ s : State,
    (s.duty.clutch = .slipping → s.slip ≤ s.config.armed.clutch.tolerance →
      clutchSpeed s = { s with duty.lockTimer := some (s.duty.lockTimer.getD 0) }) ∧
    (s.duty.clutch = .slipping → s.config.armed.clutch.tolerance < s.slip →
      clutchSpeed s = { s with duty.lockTimer := none }) ∧
    (s.duty.clutch = .locked → s.config.armed.clutch.tolerance < s.slip →
      clutchSpeed s =
        { s with
          duty.clutch := .slipping, duty.lockTimer := none,
          duty.meters.lockLosses := min (s.duty.meters.lockLosses + 1) 4294967295 }) ∧
    (s.duty.clutch = .locked ∧ s.slip ≤ s.config.armed.clutch.tolerance ∨ s.duty.clutch = .idle ∨
        s.duty.clutch = .opened → clutchSpeed s = s)) ∧
  (∀ (s : State) (hireFirst : Bool), s.awake = true →
    (s.inputs.clu.changeDue = true → s.inputs.clu.level = false →
      s.duty.clutch = .slipping ∨ s.duty.clutch = .locked →
      exec (.lineLevelChange .clu hireFirst) s =
        .next (arbitrate
          { s with
            inputs.clu := { s.inputs.clu with level := true, count := 0, changeDue := false },
            duty.clutch := .opened, duty.lockTimer := none })) ∧
    (s.inputs.clu.changeDue = true → s.inputs.clu.level = true → s.duty.clutch = .opened →
      ∃ t, exec (.lineLevelChange .clu hireFirst) s = .next t ∧ t.inputs.clu.level = false ∧
        t.duty =
          { s.duty with
            clutch := .slipping,
            lockTimer := if s.slip ≤ s.config.armed.clutch.tolerance then some 0 else none,
            meters := { s.duty.meters with clutchEngagements := min (s.duty.meters.clutchEngagements + 1) 4294967295 } } ∧
        t.hires.current = s.hires.current.map (fun h =>
          { h with counters :=
            { h.counters with clutchEngagements := min (h.counters.clutchEngagements + 1) 4294967295 } }) ∧
        t.hires.history = s.hires.history ∧ t.table = s.table ∧ t.store = s.store ∧ t.clock = s.clock) ∧
    (s.inputs.clu.changeDue = true → s.duty.clutch = .idle →
      exec (.lineLevelChange .clu hireFirst) s =
        .next (arbitrate
          { s with
            inputs.clu := { s.inputs.clu with level := !s.inputs.clu.level, count := 0, changeDue := false } })) ∧
    (s.inputs.rvs.changeDue = true →
      exec (.lineLevelChange .rvs hireFirst) s =
        .next (arbitrate
          { s with
            inputs.rvs := { s.inputs.rvs with level := !s.inputs.rvs.level, count := 0, changeDue := false } })))

/-- One sample of a line (R11, R12, R18). Awake, a sample that equals the level clears the disagreement count and one
that differs raises it, a change falling due when the count reaches the debounce time; while the part settles no
count runs; otherwise no line is sampled. The pin as last seen is the model's own field (log 21). -/
def Obligations.LinesAreSampled : Prop :=
  ∀ (s : State) (l : SwitchLine) (high : Bool),
    let cfg := s.config.armed.line l
    let active := if cfg.polarity = .activeHigh then high else !high
    let v := s.inputs.line l
    (s.awake = true → v.changeDue = false → active = v.level →
      exec (.switchLineSample l high) s =
        .next (arbitrate { s with inputs := s.inputs.setLine l ⟨v.level, 0, false, some active, high⟩ })) ∧
    (s.awake = true → v.changeDue = false → active ≠ v.level →
      exec (.switchLineSample l high) s =
        .next (arbitrate
          { s with
            inputs := s.inputs.setLine l
              ⟨v.level, v.count + 1, decide (cfg.debounceMs ≤ v.count + 1), some active, high⟩ })) ∧
    (s.clock.power = .settle →
      exec (.switchLineSample l high) s =
        .next { s with inputs := s.inputs.setLine l { v with sample := some active, pinHigh := high } }) ∧
    (s.sensing = false → exec (.switchLineSample l high) s = .next s)

/-- A change of IGN to active (R12, R97, R154), as a whole next state: RUN without a doze timer, a sleep pending
cancelled, both lamps lit for 500 ticks; the engine enters READY with its entry test from OFF, and from RUN_DOWN
below the stall speed; from RUN_DOWN at or above it the engine runs on, with an attempt of kind RE_ENGAGE when CRK
is active (R21, R22, R27). A change of IGN to inactive (R12, R154), as a whole next state: DOZE with the doze timer
loaded and a sleep pending cancelled; the engine closes an attempt of CRANKING or CONFIRMING as FAILED and goes to
RUN_DOWN or OFF by E (R23, R25), closes one of RUNNING as RE_ENGAGE and goes to RUN_DOWN (R26), and leaves READY for
OFF (R21), with the clutch of R31; an open hire whose class the policy closes joins the history with cause
IGNITION_OFF, raises HIRE_AUTO_CLOSED and asks for a commit (R112); engine and hire in the order given (log 3). -/
def Obligations.IgnitionChanges : Prop :=
  (∀ (s : State) (hireFirst : Bool), s.awake = true → s.inputs.ign.changeDue = true → s.inputs.ign.level = false →
    let calm :=
      cancelSleep { s with inputs.ign := { s.inputs.ign with level := true, count := 0, changeDue := false } }
    let up : State := { calm with clock.power := .run, clock.doze := none, clock.dozeDue := false }
    let lit := fun (u : State) =>
      ({ u with
        table.lamp1 := ⟨.check, 0, true⟩, table.lamp2 := ⟨.check, 0, true⟩, clock.lampCheck := some 500 } : State)
    let fast := s.config.armed.engine.stallSpeed ≤ s.inputs.eng.speed
    (s.duty.engine = .off ∨ s.duty.engine = .runDown ∧ ¬ fast →
      exec (.lineLevelChange .ign hireFirst) s = .next (arbitrate (lit (enterReady up)))) ∧
    (s.duty.engine = .runDown → fast →
      exec (.lineLevelChange .ign hireFirst) s =
        .next (arbitrate (lit
          { up with
            duty.engine := .running, duty.confirmTimer := none,
            starts.attempt := if s.inputs.crk.level then some (newAttempt .reEngage s) else s.starts.attempt }))) ∧
    (s.duty.engine ≠ .off → s.duty.engine ≠ .runDown →
      exec (.lineLevelChange .ign hireFirst) s = .next (arbitrate (lit up)))) ∧
  (∀ (s : State) (hireFirst : Bool), s.awake = true → s.inputs.ign.changeDue = true → s.inputs.ign.level = true →
    let calm :=
      cancelSleep { s with inputs.ign := { s.inputs.ign with level := false, count := 0, changeDue := false } }
    let down : State :=
      { calm with
        clock.power := .doze, clock.doze := some (s.config.armed.timing.dozeS * 250), clock.dozeDue := false }
    let fast := s.config.armed.engine.stallSpeed ≤ s.inputs.eng.speed
    let engine := fun (u : State) =>
      match s.duty.engine with
      | .off | .runDown => u
      | .ready => ({ u with duty.engine := .off, duty.confirmTimer := none } : State)
      | .cranking =>
        let c := closeAttempt .failed u
        if fast then
          { c with
            duty.engine := .runDown, duty.confirmTimer := none,
            duty.clutch := if s.inputs.clu.level then .opened else .slipping,
            duty.lockTimer :=
              if s.inputs.clu.level = false ∧ s.slip ≤ s.config.armed.clutch.tolerance then some 0 else none }
        else { c with duty.engine := .off, duty.confirmTimer := none }
      | .confirming =>
        let c := closeAttempt .failed u
        if fast then { c with duty.engine := .runDown, duty.confirmTimer := none }
        else { c with duty.engine := .off, duty.confirmTimer := none, duty.clutch := .idle, duty.lockTimer := none }
      | .running => { closeAttempt .reEngage u with duty.engine := .runDown, duty.confirmTimer := none }
    let hire := fun (u : State) =>
      match s.hires.current with
      | none => u
      | some h =>
        if s.config.armed.policy.closes h.cls then
          askCommit (raise .hireAutoClosed (.hire (some h.number)) (closeOpenHire .ignitionOff u))
        else u
    exec (.lineLevelChange .ign hireFirst) s =
      .next (arbitrate (if hireFirst then engine (hire down) else hire (engine down))))

/-- A change of CRK (R12, R20 to R27, R48, R51, R155), as a whole next state: a sleep pending cancelled and in DOZE the
doze timer loaded; CRK active opens an attempt of kind CRANK from READY and one of kind RE_ENGAGE in RUNNING, and
resumes the crank from CONFIRMING, a PUSH becoming a CRANK; CRK released in CRANKING leads to CONFIRMING at or above
the run speed, and below it closes the attempt as FAILED and leads to READY; in RUNNING it closes the attempt as
RE_ENGAGE; otherwise the engine does nothing. -/
def Obligations.StarterChanges : Prop :=
  ∀ (s : State) (hireFirst : Bool), s.awake = true → s.inputs.crk.changeDue = true →
    let calm :=
      cancelSleep
        { s with inputs.crk := { s.inputs.crk with level := !s.inputs.crk.level, count := 0, changeDue := false } }
    let base : State :=
      { calm with
        clock.doze := if s.clock.power = .doze then some (s.config.armed.timing.dozeS * 250) else calm.clock.doze,
        clock.dozeDue := if s.clock.power = .doze then false else calm.clock.dozeDue }
    exec (.lineLevelChange .crk hireFirst) s =
      .next (arbitrate
        (match s.duty.engine, !s.inputs.crk.level with
        | .ready, true =>
          { base with
            duty.engine := .cranking, duty.confirmTimer := none, starts.attempt := some (newAttempt .crank s) }
        | .confirming, true =>
          { base with
            duty.engine := .cranking, duty.confirmTimer := none, duty.clutch := .idle, duty.lockTimer := none,
            starts.attempt := s.starts.attempt.map fun a =>
              { a with kind := if a.kind = .push then .crank else a.kind, crankRunning := true } }
        | .running, true => { base with starts.attempt := some (newAttempt .reEngage s) }
        | .cranking, false =>
          if s.config.armed.engine.runSpeed ≤ s.inputs.eng.speed then
            { base with
              duty.engine := .confirming, duty.confirmTimer := some 0,
              duty.clutch := if s.inputs.clu.level then .opened else .slipping,
              duty.lockTimer :=
                if s.inputs.clu.level = false ∧ s.slip ≤ s.config.armed.clutch.tolerance then some 0 else none,
              starts.attempt := s.starts.attempt.map fun a => { a with crankRunning := false } }
          else { closeAttempt .failed base with duty.engine := .ready, duty.confirmTimer := none }
        | .running, false => closeAttempt .reEngage base
        | _, _ => base))

/-- A tick with no other event due and every shaft at rest, as a whole next state: meter time and the tally phase (R152,
R153), the timers counted in ticks (R24, R33, R42, R49, R96, R97), the doze timer, which also runs with a sleep of
origin REQUEST pending until a doze expiry has found it (R155, log 16), the tally when the phase returns to 0 while
awake, the checkpoint comparison at a step of the seconds (R170); and, awake or settling, the sample of VBAT (R15)
with the supply test it ends in (R16, log 36). A product that is no whole number of mV may be rounded either way
(log 5). That one step takes the tick with its sample, before the events of its instant, is the model's choice (logs
39, 40). -/
def Obligations.TickCountsTheTimers : Prop :=
  ∀ (s : State) (v : Nat), s.ticking = true → nothingDue s = true → shaftsStill s = true →
    let time : MeterTime :=
      if s.clock.time = ⟨4294967295, 249⟩ then s.clock.time
      else if s.clock.time.ticks < 249 then ⟨s.clock.time.seconds, s.clock.time.ticks + 1⟩
      else ⟨s.clock.time.seconds + 1, 0⟩
    let runs : Bool := s.clock.power == .doze && !s.clock.sleep.any (·.timerHeld)
    let lamp := fun (c : LampSettings) (l : Lamp) =>
      if l.mode = .blink then { l with phase := if c.period * 5 ≤ l.phase + 1 then 0 else l.phase + 1 } else l
    let ticked : State :=
      { s with
        inputs.captureUs := s.inputs.captureUs + (4000 - s.inputs.tickUs), inputs.tickUs := 0,
        duty.confirmTimer := s.duty.confirmTimer.map (· + 1), duty.lockTimer := s.duty.lockTimer.map (· + 1),
        duty.freshTimer := s.duty.freshTimer - 1,
        starts.attempt := s.starts.attempt.map fun a =>
          if a.crankRunning then { a with crankTicks := min (a.crankTicks + 1) 16777215 } else a,
        table.lamp1 := lamp s.config.armed.lamp1 s.table.lamp1,
        table.lamp2 := lamp s.config.armed.lamp2 s.table.lamp2,
        clock.time := time, clock.phase := if s.clock.phase < 24 then s.clock.phase + 1 else 0,
        clock.tallyDue := s.awake && decide (24 ≤ s.clock.phase),
        clock.secondStep := s.awake && time.seconds != s.clock.time.seconds,
        clock.lampCheck := s.clock.lampCheck.map (· - 1),
        clock.doze := if runs then s.clock.doze.map (· - 1) else s.clock.doze,
        clock.dozeDue := runs && s.clock.doze == some 1,
        clock.sleep := s.clock.sleep.map fun p => { p with justSet := false } }
    (s.sensing = false → exec (.meterTick v) s = .next (arbitrate ticked)) ∧
    (s.sensing = true →
      ∃ w, (w = min (v * 30 / 1000) 32767 ∨ v * 30 % 1000 ≠ 0 ∧ w = min (v * 30 / 1000 + 1) 32767) ∧
        exec (.meterTick v) s =
          .next (arbitrate (testSupply w
            { ticked with
              inputs.vbat := w,
              starts.attempt := ticked.starts.attempt.map fun a =>
                if a.crankRunning then
                  { a with batteryMin := some (match a.batteryMin with
                      | none => w
                      | some m => min m w) }
                else a })))

/-- R16: every tick ends, awake or settling, in the test of its sample (which of two whole mV a product gives may be
either, log 5): the supply state after a sample, and what an entry to WARNING alone does, SUPPLY_WARNING raised and
a commit asked for, within the tick (log 36). R170: the comparison made at a step of the seconds while awake. -/
def Obligations.SupplyAndCheckpointAreTested : Prop :=
  ((∀ (s : State) (v : Nat),
    (s.inputs.supply = .normal → v < 5500 →
      testSupply v s = askCommit (raise .supplyWarning .none { s with inputs.supply := .warning })) ∧
    (s.inputs.supply = .normal → 5500 ≤ v → testSupply v s = s) ∧
    (s.inputs.supply = .warning → v < 6000 → testSupply v s = s) ∧
    (s.inputs.supply = .warning → 6000 ≤ v → testSupply v s = { s with inputs.supply := .normal })) ∧
  ∀ (s : State) (v : Nat), s.ticking = true → (passTime (4000 - s.inputs.tickUs) s).sensing = true →
    ∃ w u, exec (.meterTick v) s = .next (arbitrate (testSupply w u)) ∧ u.inputs.vbat = w ∧
      (w = min (v * 30 / 1000) 32767 ∨ v * 30 % 1000 ≠ 0 ∧ w = min (v * 30 / 1000 + 1) 32767) ∧
      u.inputs.supply = (passTime (4000 - s.inputs.tickUs) s).inputs.supply) ∧
  (∀ s : State, s.awake = true → s.clock.secondStep = true →
    exec .checkpointDue s =
      .next (arbitrate
        (if (match s.store.lastStart with
            | none => true
            | some t => decide (s.config.armed.timing.checkpointS ≤ s.clock.time.seconds - t.seconds)) then
          askCommit { s with clock.secondStep := false }
        else { s with clock.secondStep := false })))

/-- The doze expiry (R155, R156): with the sleep conditions a sleep is set pending and a commit asked for, or a sleep
pending is found; either holds the doze timer. Without them the timer is loaded again. A commit already in flight,
also from the same instant, is not the one that the sleep waits for: the model's choice (log 46). The entry test of
a ready sleep pending (R157): SLEEP (R158), or a further test while a commit is in flight, or the cancellation. The
entry is given as a whole next state: it stops the stream, darkens the lamps, stalls the channels (R9), clears the
counts of the lines and forgets the gear (R40), and drops a level change not yet taken (log 30); everything else
stands, among it the OUT pending revolutions and edge remainder, the latest VBAT sample and the supply state. A pin
of IGN or CRK that, as last seen (log 21), already stands active wakes the part. The cancellation of a sleep pending
(R157): it becomes absent, in DOZE the doze timer is loaded again, the commit and its replies stand; a SLEEP reply
still held is no longer followed by SLEEP, and one not yet formed carries the outcome CANCELLED (R156). -/
def Obligations.DozeLeadsToSleep : Prop :=
  (∀ s : State,
    (s.clock.dozeDue = true →
      (s.inputs.ign.level = false ∧ s.duty.engine = .off ∧ s.inputs.crk.level = false ∧ s.inputs.out.st = .stalled →
        (s.clock.sleep = none →
          exec .dozeTimerExpiry s =
            .next (arbitrate (askCommit
              { s with
                clock.dozeDue := false,
                clock.sleep :=
                  some ⟨.dozeExpiry, .commit (if s.store.commit = .idle then .current else .next), true, true⟩ }))) ∧
        (∀ p, s.clock.sleep = some p →
          exec .dozeTimerExpiry s =
            .next (arbitrate
              { s with clock.dozeDue := false, clock.sleep := some { p with timerHeld := true } }))) ∧
      (¬ (s.inputs.ign.level = false ∧ s.duty.engine = .off ∧ s.inputs.crk.level = false ∧
          s.inputs.out.st = .stalled) →
        exec .dozeTimerExpiry s =
          .next (arbitrate
            { s with
              clock.dozeDue := false,
              clock.doze :=
                if s.clock.power = .doze then some (s.config.armed.timing.dozeS * 250) else s.clock.doze }))) ∧
    (s.clock.dozeDue = false → exec .dozeTimerExpiry s = .next s)) ∧
  (∀ (s : State) (p : SleepPending), s.clock.sleep = some p →
    (p.stage = .ready → s.sleepConditions = true → s.link.queue = [] → s.store.commit = .idle →
      let active := fun (c : LineSettings) (v : Line) => if c.polarity = .activeHigh then v.pinHigh else !v.pinHigh
      sleepTest s =
        { s with
          clock.power := .sleep, clock.sleep := none, clock.doze := none, clock.dozeDue := false,
          clock.tallyDue := false, clock.secondStep := false, clock.lampCheck := none,
          clock.waking :=
            active s.config.armed.ign s.inputs.ign || active s.config.armed.crk s.inputs.crk,
          inputs :=
            { s.inputs with
              eng := ⟨.stalled, none, none, 0⟩, inp := ⟨.stalled, none, none, 0⟩,
              out := ⟨.stalled, s.inputs.out.lastEdge, none, 0⟩,
              ign := { s.inputs.ign with count := 0, changeDue := false },
              crk := { s.inputs.crk with count := 0, changeDue := false },
              clu := { s.inputs.clu with count := 0, changeDue := false },
              rvs := { s.inputs.rvs with count := 0, changeDue := false } },
          duty.heldGear := 0, duty.runCount := 0, duty.gear := 0,
          table.lamp1 := ⟨.dark, 0, false⟩, table.lamp2 := ⟨.dark, 0, false⟩,
          link.stream := none, link.report := none, link.rx := [] }) ∧
    (p.stage = .ready → s.sleepConditions = true → s.link.queue = [] → s.store.commit ≠ .idle → sleepTest s = s) ∧
    (p.stage = .ready → s.sleepConditions = false ∨ s.link.queue ≠ [] →
      sleepTest s = cancelSleep s ∧ (sleepTest s).clock.sleep = none) ∧
    (p.stage ≠ .ready → sleepTest s = s)) ∧
  ((∀ s : State,
    let after := fun (a : AfterReply) => if a = .sleepLive ∨ a = .sleepReplaced then .sleepCancelled else a
    (s.clock.sleep = none → cancelSleep s = s) ∧
    (s.clock.sleep ≠ none →
      cancelSleep s =
        { s with
          clock.sleep := none,
          clock.doze := if s.clock.power = .doze then some (s.config.armed.timing.dozeS * 250) else s.clock.doze,
          clock.dozeDue := if s.clock.power = .doze then false else s.clock.dozeDue,
          link.deferred := s.link.deferred.map fun d => { d with after := after d.after },
          link.ready := s.link.ready.map fun r => { r with after := after r.after },
          link.tx := s.link.tx.map fun x =>
            match x.source with
            | .reply a => { x with source := .reply (after a) }
            | _ => x })) ∧
  ∀ (d : Deferred) (written : Option (Nat × Area)), d.form = .sleepOutcome →
    d.fields written = [.num 1 (if d.after = .sleepCancelled then 1 else 0)])

/-- The lamps formed from the marks while awake (R94, R96): STEADY, BLINK or DARK by the marks of the slots in the map;
a lamp that stays in BLINK keeps its phase, one that enters BLINK starts at 0, a lamp in CHECK stays; nothing else
changes. At ARM (R98) a lamp whose item has changed is formed under the new item, and one in BLINK then has its
phase and its level set by the new period and duty. The lamp check's end forms both lamps afresh (R97, R94), and a
lamp in BLINK switches at the boundary of its lit part (R96). Each happens only when it is due. The pins of the
lamps (R95): while the part is awake, in SLEEP and in the settle step each stands at the lit level of its armed
polarity exactly while its lamp is lit; low without supply, while RESETn is low and in the restore step; and from
the end of the restore step, as from the entry to SLEEP, at the inactive level. The pin is a function of State (log
23). -/
def Obligations.LampsFollowTheirTicks : Prop :=
  ((∀ (c : LampSettings) (slots : Eight SlotMeters) (p : SlotMeters → Bool),
    c.anySlot slots p = true ↔ ∃ k, c.map.get k = true ∧ p (slots.get k) = true) ∧
  (∀ (s : State) (m : LampId),
    let c := s.config.armed.lamp m
    let l := s.table.lamp m
    (s.awake = false → formLamps s = s) ∧
    (s.awake = true →
      (formLamps s).table.lamp m =
        (if l.mode = .check then l
        else if c.anySlot s.table.slots (·.due) then ⟨.steady, 0, true⟩
        else if c.anySlot s.table.slots (·.advisory) then
          (if l.mode = .blink then l else ⟨.blink, 0, decide (0 < c.duty * 5)⟩)
        else ⟨.dark, 0, false⟩)) ∧
    { formLamps s with table := s.table } = s ∧ (formLamps s).table.slots = s.table.slots) ∧
  ∀ (s : State) (old : Settings) (m : LampId),
    let c := s.config.armed.lamp m
    let f := (formLamps s).table.lamp m
    let phase := if c.period * 5 ≤ f.phase then 0 else f.phase
    (s.awake = false → rearmLamps old s = s) ∧
    (s.awake = true →
      (rearmLamps old s).table.lamp m =
        (if old.lamp m ≠ c ∧ f.mode = .blink then ⟨.blink, phase, decide (phase < c.duty * 5)⟩ else f)) ∧
    { rearmLamps old s with table := s.table } = s ∧ (rearmLamps old s).table.slots = s.table.slots) ∧
  (∀ (s : State) (m : LampId),
    (s.clock.lampCheck = some 0 → s.awake = true →
      ∃ t, exec .lampCheckExpiry s = .next t ∧ t.clock = { s.clock with lampCheck := none } ∧
        (∀ n, t.table.lamp n =
          if (s.config.armed.lamp n).anySlot s.table.slots (·.due) then ⟨.steady, 0, true⟩
          else if (s.config.armed.lamp n).anySlot s.table.slots (·.advisory) then
            ⟨.blink, 0, decide (0 < (s.config.armed.lamp n).duty * 5)⟩
          else ⟨.dark, 0, false⟩) ∧
        t.table.slots = s.table.slots ∧ t.hires = s.hires ∧ t.duty = s.duty ∧ t.store = s.store ∧
        t.inputs = s.inputs ∧ t.starts = s.starts ∧ t.config = s.config ∧ t.link.queue = s.link.queue) ∧
    (s.clock.lampCheck ≠ some 0 → exec .lampCheckExpiry s = .next s) ∧
    ((s.table.lamp m).mode = .blink →
      (s.table.lamp m).lit ≠ decide ((s.table.lamp m).phase < (s.config.armed.lamp m).duty * 5) →
      ∃ t, exec (.blinkPhaseBoundary m) s = .next t ∧
        t.table.lamp m =
          ⟨.blink, (s.table.lamp m).phase, decide ((s.table.lamp m).phase < (s.config.armed.lamp m).duty * 5)⟩ ∧
        (∀ n, n ≠ m → t.table.lamp n = s.table.lamp n) ∧ t.table.slots = s.table.slots ∧ t.clock = s.clock ∧
        t.hires = s.hires ∧ t.store = s.store ∧ t.inputs = s.inputs ∧ t.duty = s.duty ∧ t.starts = s.starts ∧
        t.config = s.config ∧ t.link.queue = s.link.queue) ∧
    ((s.table.lamp m).mode ≠ .blink → exec (.blinkPhaseBoundary m) s = .next s)) ∧
  ((∀ (s : State) (m : LampId),
    (s.clock.power = .run ∨ s.clock.power = .doze ∨ s.clock.power = .sleep ∨ s.clock.power = .settle →
      (s.lampHigh m = true ↔
        (s.config.armed.lamp m).polarity = .activeHigh ∧ (s.table.lamp m).lit = true ∨
          (s.config.armed.lamp m).polarity = .activeLow ∧ (s.table.lamp m).lit = false)) ∧
    (s.clock.power = .unpowered ∨ s.clock.power = .held ∨ s.clock.power = .restore → s.lampHigh m = false) ∧
    ((enterSleep s).lampHigh m = true ↔ (s.config.armed.lamp m).polarity = .activeLow)) ∧
  ∀ (s : State) (high : Bool), s.clock.power = .restore →
    ∃ t, exec (.restoreStepEnd high) s = .next t ∧
      ∀ m, t.lampHigh m = true ↔ (t.config.armed.lamp m).polarity = .activeLow)

/-- The opening of an attempt (R47): the meter time, COLD, HOT and LOAD as they stand, the coolant value only when
FRESH, the number of the open hire, the crank running unless the kind is PUSH, no crank tick and no battery minimum.
The expiry of the confirm timer (R24, R25): a successful start, its class from the kind and the captured COLD; the
attempt closes with it, the engine runs, the clutch stands. Before its ticks have passed nothing happens. The close
of an attempt (R52 to R57): the lifetime counter and the open hire's counter of its class rise by 1, up to their top
(R54); every START slot is charged for its crank duration, under the conditions captured at its opening and its own
battery minimum (R53, R69, R72); the entry joins the log as the newest of at most 32 under the next number, and
raises START_LOGGED, unless the numbers are EXHAUSTED; the attempt is closed. -/
def Obligations.StartsAreConfirmed : Prop :=
  (∀ (kind : AttemptKind) (s : State),
    newAttempt kind s =
      { openTime := s.clock.time, kind := kind, cold := s.conditions.cold, hot := s.conditions.hot,
        load := s.conditions.load, coolant := if s.duty.fresh then s.duty.coolant else none,
        hire := s.hires.current.map fun h => h.number, crankRunning := decide (kind ≠ .push), crankTicks := 0,
        batteryMin := none }) ∧
  (∀ (s : State) (n : Nat), s.duty.engine = .confirming → s.duty.confirmTimer = some n →
    (∀ a, s.starts.attempt = some a → (s.config.armed.engine.confirmMs + 3) / 4 ≤ n →
      let cls : AttemptClass := if a.kind = .push then .push else if a.cold then .coldOk else .warmOk
      exec .confirmTimerExpiry s =
        .next (arbitrate { closeAttempt cls s with duty.engine := .running, duty.confirmTimer := none })) ∧
    (n < (s.config.armed.engine.confirmMs + 3) / 4 → exec .confirmTimerExpiry s = .next s)) ∧
  ((∀ (s : State) (cls : AttemptClass) (a : Attempt), s.starts.attempt = some a →
    let low := if a.crankTicks = 0 then none else a.batteryMin
    let active := startConditions s.config.armed.conditions.lowBatteryLimit a low
    let counted : State :=
      { s with
        starts.life := s.starts.life.bump cls,
        hires.current := s.hires.current.map fun h =>
          { h with counters := { h.counters with starts := h.counters.starts.bump cls } } }
    let charged :=
      charge
        (Eight.ofFn fun k =>
          startRaw cls (min ((a.crankTicks + 24) / 25) 300) active s (s.config.armed.slots.get k))
        counted
    (4294967296 ≤ s.starts.next → closeAttempt cls s = { charged with starts.attempt := none }) ∧
    (s.starts.next < 4294967296 →
      closeAttempt cls s =
        raise .startLogged (.hire a.hire)
          { charged with
            starts.attempt := none, starts.next := s.starts.next + 1,
            starts.log :=
              ({ number := s.starts.next, openTime := a.openTime, cls := cls,
                 tenths := min ((a.crankTicks + 24) / 25) 300, batteryMin := low, coolant := a.coolant,
                 hire := a.hire } :: s.starts.log).take 32 })) ∧
  (∀ (s : State) (cls : AttemptClass), s.starts.attempt = none → closeAttempt cls s = s) ∧
  ∀ c : StartCounts,
    c.bump .coldOk = { c with coldOk := min (c.coldOk + 1) 4294967295 } ∧
    c.bump .warmOk = { c with warmOk := min (c.warmOk + 1) 4294967295 } ∧
    c.bump .failed = { c with failed := min (c.failed + 1) 4294967295 } ∧
    c.bump .reEngage = { c with reEngage := min (c.reEngage + 1) 4294967295 } ∧
    c.bump .push = { c with push := min (c.push + 1) 4294967295 })

/-- The expiry of the lock timer (R33). The freshness expiry (R42): STALE, the value kept, CONDITION_STALE raised. -/
def Obligations.LockAndFreshnessExpire : Prop :=
  (∀ (s : State) (n : Nat), s.duty.clutch = .slipping → s.duty.lockTimer = some n →
    ((s.config.armed.clutch.lockMs + 3) / 4 ≤ n →
      exec .lockTimerExpiry s = .next (arbitrate { s with duty.clutch := .locked, duty.lockTimer := none })) ∧
    (n < (s.config.armed.clutch.lockMs + 3) / 4 → exec .lockTimerExpiry s = .next s)) ∧
  (∀ s : State,
    (s.duty.fresh = true → s.duty.freshTimer = 0 →
      ∃ t, exec .freshnessExpiry s = .next t ∧ t.duty = { s.duty with fresh := false, freshTimer := 0 } ∧
        (t.link.flags.get .conditionStale).set.isSome = true ∧ t.inputs = s.inputs ∧ t.starts = s.starts ∧
        t.table = s.table ∧ t.hires = s.hires ∧ t.config = s.config ∧ t.clock = s.clock ∧ t.store = s.store ∧
        t.link.queue = s.link.queue) ∧
    (s.duty.fresh = false ∨ s.duty.freshTimer ≠ 0 → exec .freshnessExpiry s = .next s))

/-- A tally (R153), as a whole next state: the OUT drain of at most 600 revolutions (R8) and the run, ignition and
output meters with the open hire's counters (R45); then the gear tracker (R39), the per-tally laws charged with the
drained count (R63) and the stream (R183), in the order of the command's operand (log 3). The run meter and the HOUR
charge read one engine state (log 32). Nothing happens while no tally is due. -/
def Obligations.TallyDrainsAndCounts : Prop :=
  ∀ (s : State) (o : TallyOrder),
    (s.awake = true → s.clock.tallyDue = true →
      let n := min s.inputs.outPending 600
      let run := if s.duty.engine = .confirming ∨ s.duty.engine = .running ∨ s.duty.engine = .runDown then 1 else 0
      let ign := if s.inputs.ign.level then 1 else 0
      let metered : State :=
        { s with
          clock.tallyDue := false, inputs.outPending := s.inputs.outPending - n,
          duty.meters :=
            { s.duty.meters with
              runTallies := min (s.duty.meters.runTallies + run) 4294967295,
              ignitionTallies := min (s.duty.meters.ignitionTallies + ign) 4294967295,
              outputRevolutions := min (s.duty.meters.outputRevolutions + n) 4294967295 },
          hires.current := s.hires.current.map fun h =>
            { h with
              counters :=
                { h.counters with
                  runTallies := min (h.counters.runTallies + run) 4294967295,
                  outputRevolutions := min (h.counters.outputRevolutions + n) 4294967295 } } }
      let wear := fun (u : State) => charge (Eight.ofFn fun k => tallyRaw n u (u.config.armed.slots.get k)) u
      exec (.tally o) s =
        .next (arbitrate
          (match o.gearFirst, o.reportFirst with
          | true, false => streamTally (wear (trackGear metered))
          | true, true => wear (trackGear (streamTally metered))
          | false, false => streamTally (trackGear (wear metered))
          | false, true => trackGear (wear (streamTally metered))))) ∧
    (s.awake = false ∨ s.clock.tallyDue = false → exec (.tally o) s = .next s)

/-- The gear tracker at a tally (R38, R39): the candidate by RVS, the O minimum and the first window that holds the
ratio, a ratio of 0 lying in none (log 31); the run count; the confirmed gear after n tallies in a row; and the
engagement of a confirmed gear other than 0, which is counted for the gear and the open hire and charged under the
SHIFT law (R70). -/
def Obligations.GearIsTracked : Prop :=
  ∀ s : State,
    let o := s.inputs.out.speed
    let c := candidateGear s
    let run := if c = s.duty.heldGear then min (s.duty.runCount + 1) 30 else 1
    let n := (s.config.armed.shift.confirmMs + 99) / 100
    (s.config.armed.shift.oMinimum ≤ o → s.inputs.rvs.level = true → c = 7) ∧
    (o < s.config.armed.shift.oMinimum → c = 0) ∧
    (s.config.armed.shift.oMinimum ≤ o → s.inputs.rvs.level = false →
      (c = 0 ∨ ∃ g, (c, some g) ∈ numberedGears s.config.armed.gears ∧
        0 < s.inputs.inp.speed * 1000 / o ∧ g.nominal ≤ s.inputs.inp.speed * 1000 / o + g.tolerance ∧
        s.inputs.inp.speed * 1000 / o ≤ g.nominal + g.tolerance) ∧
      (∀ d g, (d, some g) ∈ numberedGears s.config.armed.gears →
        0 < s.inputs.inp.speed * 1000 / o → g.nominal ≤ s.inputs.inp.speed * 1000 / o + g.tolerance →
        s.inputs.inp.speed * 1000 / o ≤ g.nominal + g.tolerance → c ≠ 0 ∧ c ≤ d)) ∧
    (run < n ∨ s.duty.gear = c ∨ c = 0 →
      trackGear s =
        { s with
          duty.heldGear := c, duty.runCount := run, duty.gear := if n ≤ run then c else s.duty.gear }) ∧
    (n ≤ run → s.duty.gear ≠ c → c ≠ 0 →
      let engaged : State :=
        { s with
          duty.heldGear := c, duty.runCount := run, duty.gear := c,
          duty.meters.gearEngagements :=
            s.duty.meters.gearEngagements.modify c fun k => min (k + 1) 4294967295,
          hires.current := s.hires.current.map fun h =>
            { h with
              counters :=
                { h.counters with gearEngagements := min (h.counters.gearEngagements + 1) 4294967295 } } }
      trackGear s =
        charge (Eight.ofFn fun k => shiftRaw c engaged (s.config.armed.slots.get k)) engaged)

/-- The active severity conditions (R43): COLD and HOT by strict comparison of a FRESH coolant value with its limits,
LOAD in LADEN and TOWING, LOW_BATTERY by strict comparison of the latest VBAT sample. The band edges of R66 over
ascending edges from 0: the band is the highest index whose edge is at or below E. The raw increments of a tally by
the slot's law (R65, R67, R68, R71, R73, R74). The raw increments of a gear engagement and of the close of a start
attempt (R69, R70, R72): a START charge takes the conditions captured at the opening and LOW_BATTERY from the
attempt's own minimum. -/
def Obligations.LawsChargeTheirQuantity : Prop :=
  (∀ s : State,
    let c := s.config.armed.conditions
    (s.conditions.cold = true ↔ s.duty.fresh = true ∧ ∃ t, s.duty.coolant = some t ∧ t < c.coldLimit) ∧
    (s.conditions.hot = true ↔ s.duty.fresh = true ∧ ∃ t, s.duty.coolant = some t ∧ c.hotLimit < t) ∧
    (s.conditions.load = true ↔ s.duty.load = .laden ∨ s.duty.load = .towing) ∧
    (s.conditions.lowBattery = true ↔ s.inputs.vbat < c.lowBatteryLimit)) ∧
  (∀ (edges : Eight Nat) (e : Nat), bandsPass edges = true →
    edges.get (bandOf edges e) ≤ e ∧ ∀ b : Fin 8, edges.get b ≤ e → b ≤ bandOf edges e) ∧
  (∀ (s : State) (drained : Nat) (c : SlotSettings),
    let sev := severity s.config.armed.conditions s.conditions c.map
    let turning := s.duty.engine = .confirming ∨ s.duty.engine = .running ∨ s.duty.engine = .runDown
    (let level := s.config.armed.conditions
     sev = 2 ^ max
      (max (if s.conditions.cold && c.map.cold then level.levelCold else 0)
        (if s.conditions.hot && c.map.hot then level.levelHot else 0))
      (max (if s.conditions.load && c.map.load then level.levelLoad else 0)
        (if s.conditions.lowBattery && c.map.lowBattery then level.levelLowBattery else 0))) ∧
    (c.law = .hour → turning → tallyRaw drained s c =
      some (min (c.weights.get (bandOf s.config.armed.bands s.inputs.eng.speed) * sev) 16777215)) ∧
    (c.law = .hour → ¬ turning → tallyRaw drained s c = some 0) ∧
    (c.law = .slip → s.duty.clutch = .slipping → tallyRaw drained s c =
      some (min ((s.inputs.eng.speed - s.inputs.inp.speed + (s.inputs.inp.speed - s.inputs.eng.speed)) *
        c.weights.get s.duty.gear * sev / 600) 16777215)) ∧
    (c.law = .slip → s.duty.clutch ≠ .slipping → tallyRaw drained s c = some 0) ∧
    (c.law = .rev → tallyRaw drained s c = some (min (drained * c.weights.get s.duty.gear * sev) 16777215)) ∧
    (c.law = .none ∨ c.law = .start ∨ c.law = .shift → tallyRaw drained s c = none)) ∧
  (∀ (s : State) (c : SlotSettings) (g : Gear) (a : Attempt) (cls : AttemptClass) (low : Option Nat),
    let limit := s.config.armed.conditions.lowBatteryLimit
    let active := startConditions limit a low
    (c.law = .shift → shiftRaw g s c =
      some (min (c.weights.get g * severity s.config.armed.conditions s.conditions c.map) 16777215)) ∧
    (c.law ≠ .shift → shiftRaw g s c = none) ∧
    (c.law = .start → startRaw cls a.tenths active s c =
      some (min (max 1 (min 300 a.tenths) * c.weights.get cls.index *
        severity s.config.armed.conditions active c.map / 10) 16777215)) ∧
    (c.law ≠ .start → startRaw cls a.tenths active s c = none) ∧
    active.cold = a.cold ∧ active.hot = a.hot ∧ active.load = a.load ∧
    active.lowBattery = (match low with | some v => decide (v < limit) | none => false) ∧
    a.tenths = min ((a.crankTicks + 24) / 25) 300)

/-- R75 to R78 on one slot: the carry through the residue, the discard of a FROZEN slot, the freeze, the delivery with
its saturating meters and the marks that R86 tests. One event of the arithmetic (R63, R79): every slot concerned is
charged, and the whole units delivered go to the one attribution target of the instant, slot by slot: idle pool,
main deltas or recovery deltas. What an event of the arithmetic, or a re-evaluation, does beyond the meters (R77,
R86 to R88): the flags of the marks newly set on one or more slots are raised, the detail being the slot, or one of
the slots (which of several is free, log 6); every other flag stands, and nothing else changes but the count of free
picks. -/
def Obligations.WearIsDelivered : Prop :=
  (∀ (c : SlotSettings) (raw : Nat) (m : SlotMeters),
    let w := (m.residue + raw) / 256
    let n := chargeSlot c raw m
    let since := min (m.sinceService + w) 4294967295
    n.residue = (m.residue + raw) % 256 ∧
    (m.frozen = true ∨ w = 0 → n = { m with residue := (m.residue + raw) % 256 } ∧ delivered raw m = 0) ∧
    (m.frozen = false → 0 < w → 4294967295 < m.total + w →
      n = { m with residue := (m.residue + raw) % 256, frozen := true } ∧ delivered raw m = 0) ∧
    (m.frozen = false → 0 < w → m.total + w ≤ 4294967295 →
      n =
        { m with
          residue := (m.residue + raw) % 256, total := m.total + w,
          unitTotal := min (m.unitTotal + w) 4294967295, sinceService := since,
          advisory := m.advisory || (c.advisory != 0 && decide (c.advisory ≤ since)),
          due := m.due || (c.limit != 0 && decide (c.limit * 65536 ≤ since)) } ∧
      delivered raw m = w)) ∧
  (∀ (s : State) (raws : Eight (Option Nat)) (k : Slot),
    let t := charge raws s
    let w := match raws.get k with
      | some r => delivered r (s.table.slots.get k)
      | none => 0
    t.table.slots.get k =
      (match raws.get k with
        | some r => chargeSlot (s.config.armed.slots.get k) r (s.table.slots.get k)
        | none => s.table.slots.get k) ∧
    (s.hires.current = none → t.hires.idle.get k = s.hires.idle.get k + w ∧ t.hires.current = none) ∧
    (∀ h, s.hires.current = some h → t.hires.idle = s.hires.idle ∧ ∃ g, t.hires.current = some g ∧
      g.number = h.number ∧ g.suspended = h.suspended ∧ g.counters = h.counters ∧
      (h.suspended = false → g.main.get k = h.main.get k + w ∧ g.recovery = h.recovery) ∧
      (h.suspended = true → g.main = h.main ∧ ∃ r, g.recovery = some r ∧
        r.get k = (h.recovery.getD (Eight.all 0)).get k + w)) ∧
    t.hires.history = s.hires.history ∧ t.hires.settled = s.hires.settled ∧ t.inputs = s.inputs ∧ t.duty = s.duty ∧
    t.starts = s.starts ∧ t.config = s.config ∧ t.clock = s.clock ∧ t.store = s.store) ∧
  ((∀ (s : State) (raws : Eight (Option Nat)), ∃ u,
    charge raws s = formLamps (raiseMarks s.table.slots u) ∧
    { u with table.slots := s.table.slots, hires := s.hires } = s) ∧
  ∀ (s : State) (before : Eight SlotMeters),
    let newly := fun (p : SlotMeters → Bool) (k : Slot) => p (before.get k) = false ∧ p (s.table.slots.get k) = true
    let t := raiseMarks before s
    let marks := fun (f : Flag) (p : SlotMeters → Bool) =>
      ((∀ k, ¬ newly p k) ∨ (s.link.flags.get f).set.isSome = true → t.link.flags.get f = s.link.flags.get f) ∧
      ((s.link.flags.get f).set = none → (∃ k, newly p k) → ∃ k, newly p k ∧
        t.link.flags.get f =
          ⟨some ⟨.index k.val, s.clock.time⟩, (s.link.flags.get f).enabled, (s.link.flags.get f).enabled⟩)
    marks .slotAdvisory (·.advisory) ∧ marks .slotDue (·.due) ∧ marks .slotFrozen (·.frozen) ∧
    (∀ f, f ∉ [.slotAdvisory, .slotDue, .slotFrozen] → t.link.flags.get f = s.link.flags.get f) ∧
    { t with link.flags := s.link.flags, freePicks := s.freePicks } = s)

/-- An ask for a commit (R165 to R167, R171): in IDLE one starts at once, in the first usable area after the last
written one, with the next sequence number and the snapshot of the instant; in flight, one further commit is made
pending, whoever asks. With no area usable it completes as FAILED at once and writes nothing: its time is the last
commit start, the replies bound to it are ready as DONE_NOT_RETAINED, CHECKPOINT with its sequence number and area
absent (R168), the hold ends (R162), and a sleep pending that waits for it is ready or waits for its reply, and is
tested (R157). The snapshot of R164: every retained field as it stands, and the check word computed over the bytes
before it, whose layout is free (log 7). -/
def Obligations.CommitsAreAskedFor : Prop :=
  (∀ s : State,
    (∀ a, s.store.commit = .idle → s.store.nextArea = some a →
      askCommit s =
        { s with
          store.lastStart := some s.clock.time, store.lastArea := some a,
          store.lastSequence := (s.store.lastSequence + 1) % 4294967296,
          store.commit := .inFlight ⟨a, s.snapshot ((s.store.lastSequence + 1) % 4294967296), s.clock.hold⟩ }) ∧
    (let start : Area := match s.store.lastArea with
        | some a => a + 1
        | none => 0
      s.store.nextArea = [start, start + 1, start + 2, start + 3].find? fun a => s.store.usable.get a) ∧
    (s.store.commit = .idle → s.store.nextArea = none →
      askCommit s =
        sleepTest
          { s with
            store.lastStart := some s.clock.time,
            link.ready := s.link.ready ++
              (s.link.deferred.filter (fun d => d.bound = .current)).map (fun d =>
                ⟨d.kind, d.tag, .doneNotRetained, d.takenAt, d.fields none, d.after, s.inputs.captureUs, d.order⟩),
            link.deferred := s.link.deferred.filter (fun d => d.bound = .next),
            clock.sleep := s.clock.sleep.map (fun p =>
              if p.stage = .commit .current then
                { p with stage := if p.origin = .dozeExpiry then .ready else .reply }
              else p),
            clock.hold := false }) ∧
    (∀ f, s.store.commit = .inFlight f → askCommit s = { s with store.commit := .inFlightPending f }) ∧
    (∀ f, s.store.commit = .inFlightPending f → askCommit s = s) ∧
    ∀ (d : Deferred) (written : Option (Nat × Area)),
      d.fields written =
        match d.form with
        | .kept fields => fields
        | .checkpoint => [.opt 4 (written.map (·.1)), .opt 1 (written.map (·.2.val))]
        | .sleepOutcome => [.num 1 (if d.after = .sleepCancelled then 1 else 0)]) ∧
  (∀ (s : State) (n : Nat),
    let i := s.snapshot n
    i.check = crc16 (Config.imageBytes i.toImageFields) ∧
    i.toImageFields =
      { sequence := n, time := s.clock.time, armed := s.config.armed, generation := s.config.generation,
        slots := s.table.slots, idle := s.hires.idle, settled := s.hires.settled, openHire := s.hires.current,
        history := s.hires.history, released := s.hires.released, nextHire := s.hires.next,
        nextAttempt := s.starts.next, startLog := s.starts.log, lifeStarts := s.starts.life, meters := s.duty.meters,
        outPending := s.inputs.outPending, faultSeen := s.store.faultSeen })

/-- The completion of a commit (R104, R157, R162, R167 to R169, R171), as a whole next state. VERIFIED: the image stands
in its area, the secured mark takes the snapshot's next hire number, the bound replies are ready as DONE, with this
instant as that of their release, and a hold that the commit serves ends. FAILED: the area becomes unusable and
holds what the operand says (log 7), the fault is remembered, RETENTION_FAULT is raised with the area, the bound
replies are ready as DONE_NOT_RETAINED, and the hold ends when no area is left. Then the commit that is pending, or
that the hold asks for, starts, and a sleep pending that has become ready is tested. An ask of the hold joins a
pending commit, and a failure that ends the hold asks for none (log 35). The entry to SLEEP comes before the
arbiter: the model's choice (log 41). Which commit serves the hold is the model's choice where two events share an
instant (log 45). -/
def Obligations.CommitsEnd : Prop :=
  ∀ (s : State) (f : Flight) (waits : Bool),
    s.store.commit = (if waits then .inFlightPending f else .inFlight f) →
    let reply := fun (code : ReplyCode) (d : Deferred) =>
      (⟨d.kind, d.tag, code, d.takenAt, d.fields (some (f.image.sequence, f.area)), d.after, s.inputs.captureUs,
        d.order⟩ : Reply)
    let bound := s.link.deferred.filter fun d => d.bound = .current
    let rest := s.link.deferred.filter fun d => d.bound = .next
    let waiting := s.clock.sleep.map fun p =>
      if p.stage = .commit .current then { p with stage := if p.origin = .dozeExpiry then .ready else .reply } else p
    let again := fun (u : State) =>
      askCommit
        { u with
          link.deferred := rest.map fun d => { d with bound := .current },
          clock.sleep := waiting.map fun p =>
            if p.stage = .commit .next then { p with stage := .commit .current } else p }
    (let verified : State :=
      { s with
        store.areas := s.store.areas.set f.area (.image f.image), store.commit := .idle,
        hires.secured := f.image.nextHire, clock.hold := s.clock.hold && !f.afterHold, clock.sleep := waiting,
        link.ready := s.link.ready ++ bound.map (reply .done), link.deferred := rest }
     exec (.commitComplete .verified) s =
      .next (arbitrate (sleepTest (if waits then again verified else verified)))) ∧
    ∀ left : FailedArea,
      let usable := s.store.usable.set f.area false
      let hold := s.clock.hold && usable.toList.any id
      let failed : State :=
        { s with
          store.usable := usable, store.faultSeen := true, store.commit := .idle,
          store.areas := match left with
            | .noValidImage => s.store.areas.set f.area .unreadable
            | .imageBefore => s.store.areas,
          clock.hold := hold, clock.sleep := waiting,
          link.flags := s.link.flags.set .retentionFault
            ((s.link.flags.get .retentionFault).raised (.index f.area.val) s.clock.time),
          link.ready := s.link.ready ++ bound.map (reply .doneNotRetained), link.deferred := rest }
      exec (.commitComplete (.failed left)) s =
        .next (arbitrate (sleepTest (if waits || hold then again failed else failed)))

/-- The transmit arbiter (R184): with the line free, awake and the hold clear, a ready reply goes first, the one
released earliest, and among replies made ready at one instant the one whose request was taken first; else the
pending notice with the lowest flag number, whose flag stays set (R180), else the report; otherwise nothing.
Instants are counts of the capture timers, and requests are numbered as they are taken (log 43). -/
def Obligations.ArbiterPicksTheNextFrame : Prop :=
  ∀ s : State,
    (s.link.tx ≠ none ∨ s.awake = false ∨ s.clock.hold = true → arbitrate s = s) ∧
    (s.link.tx = none → s.awake = true → s.clock.hold = false →
      (s.link.ready ≠ [] → ∃ r ∈ s.link.ready,
        (∀ q ∈ s.link.ready, r.readyAt < q.readyAt ∨ r.readyAt = q.readyAt ∧ r.order ≤ q.order) ∧
        arbitrate s =
          { s with
            link.ready := s.link.ready.erase r,
            link.tx := some ⟨.reply r.after, ⟨r.kind + 0x80, r.tag,
              encodeFields s.hires.secured (.num 1 r.code.code :: .time r.takenAt :: r.fields)⟩⟩ }) ∧
      (∀ f r, s.link.ready = [] → (s.link.flags.get f).notice = true → (s.link.flags.get f).set = some r →
        (∀ g, g.number < f.number → (s.link.flags.get g).notice = false) →
        arbitrate s =
          { s with
            link.flags := s.link.flags.set f ⟨some r, (s.link.flags.get f).enabled, false⟩,
            link.tx := some ⟨.notice f, ⟨0x60, 0, encodeFields s.hires.secured (noticeFields f r)⟩⟩ }) ∧
      (∀ fs, s.link.ready = [] → (∀ g, (s.link.flags.get g).notice = false) → s.link.report = some fs →
        arbitrate s =
          { s with
            link.report := none, link.tx := some ⟨.report, ⟨0x61, 0, encodeFields s.hires.secured fs⟩⟩ }) ∧
      (s.link.ready = [] → (∀ g, (s.link.flags.get g).notice = false) → s.link.report = none → arbitrate s = s))

/-- The end of a frame (R184): the line is free, its reply buffer entry with it (R178). The RESTART reply starts the
part up (R163), and the SLEEP reply makes its sleep pending ready (R157). That the start-up abandons a commit in
flight is DEDUCED (log 17). The entry to SLEEP comes before the arbiter: the model's choice (log 41). -/
def Obligations.TransmissionsEnd : Prop :=
  ∀ (s : State) (x : Tx), s.link.tx = some x →
    ((x.source ≠ .reply .startUp → x.source ≠ .reply .sleepLive →
      exec .transmitComplete s = .next (arbitrate { s with link.tx := none })) ∧
    (x.source = .reply .startUp →
      ∃ t, exec .transmitComplete s = .next t ∧ t.clock.power = .restore ∧ t.clock.supplyOn = s.clock.supplyOn ∧
        t.store.areas = s.store.areasAtStop ∧ t.link.queue = [] ∧ t.link.ready = [] ∧ t.link.deferred = [] ∧
        t.config.staging = none ∧ t.pending = s.pending) ∧
    (∀ p, x.source = .reply .sleepLive → s.clock.sleep = some p → p.stage = .reply →
      exec .transmitComplete s =
        .next (arbitrate (sleepTest { s with link.tx := none, clock.sleep := some { p with stage := .ready } }))))

/-- A raise (R180): a clear flag is set with its detail and the meter time, and gets a notice if enabled; a set flag
stands as it is; the other flags stand. NOTICE_MASK (R180) and CLEAR_FLAGS (R181), flag by flag: the notices that a
new mask adds and takes away; the flags of the mask cleared, and then each of the four level flags whose condition
holds raised, in the mask or not, unless it is still set (R88). -/
def Obligations.FlagsAreRaisedMaskedAndCleared : Prop :=
  (∀ (s : State) (f g : Flag) (d : Detail),
    ((s.link.flags.get f).set = none →
      (raise f d s).link.flags.get f =
        ⟨some ⟨d, s.clock.time⟩, (s.link.flags.get f).enabled, (s.link.flags.get f).enabled⟩) ∧
    ((s.link.flags.get f).set.isSome = true → (raise f d s).link.flags.get f = s.link.flags.get f) ∧
    (g ≠ f → (raise f d s).link.flags.get g = s.link.flags.get g) ∧
    { raise f d s with link.flags := s.link.flags } = s) ∧
  (∀ (s : State) (f : Frame) (rest : List Frame) (mask : Nat), mask < 65536 → f.payload = bytesOf 2 mask →
    (atHead 0x48 f rest s → ∃ flags : FlagTable,
      exec .noticeMask s =
        .next (arbitrate (replied f rest .done [.num 2 flags.maskWord, .num 2 flags.setWord]
          { s with link.flags := flags })) ∧
      ∀ g, (flags.get g).set = (s.link.flags.get g).set ∧
        (flags.get g).enabled = mask.testBit (g.number - 1) ∧
        ((flags.get g).notice = true ↔ mask.testBit (g.number - 1) = true ∧
          ((s.link.flags.get g).notice = true ∨
            (s.link.flags.get g).enabled = false ∧ (s.link.flags.get g).set.isSome = true))) ∧
    (atHead 0x49 f rest s → ∃ flags : FlagTable,
      exec .clearFlags s =
        .next (arbitrate (replied f rest .done [.num 2 flags.maskWord, .num 2 flags.setWord]
          { s with link.flags := flags })) ∧
      ∀ g,
        let on := (s.link.flags.get g).enabled
        let cleared : FlagState := if mask.testBit (g.number - 1) then ⟨none, on, false⟩ else s.link.flags.get g
        let holds : Option Detail := match g with
          | .conditionStale => if s.duty.fresh then none else some .none
          | .supplyWarning => if s.inputs.supply = .warning then some .none else none
          | .slotDue => (([0, 1, 2, 3, 4, 5, 6, 7] : List Slot).find? fun k => (s.table.slots.get k).due).map
              fun k => .index k.val
          | .slotFrozen => (([0, 1, 2, 3, 4, 5, 6, 7] : List Slot).find? fun k => (s.table.slots.get k).frozen).map
              fun k => .index k.val
          | _ => none
        flags.get g =
          match holds with
          | some d => if cleared.set.isSome then cleared else ⟨some ⟨d, s.clock.time⟩, on, on⟩
          | none => cleared))

/-- R182: while awake and in SLEEP, the ATTN pin is low exactly while an enabled flag is set; it is released while
RESETn is low and through start-up until RESTORED is raised at its end, and then, every flag being enabled, driven
low, whatever commit is in flight. The pin is a function of State (log 23). -/
def Obligations.AttnFollowsTheFlags : Prop :=
  ∀ s : State,
    (s.clock.power = .run ∨ s.clock.power = .doze ∨ s.clock.power = .sleep →
      (s.attnLow = true ↔ ∃ f, (s.link.flags.get f).enabled = true ∧ (s.link.flags.get f).set.isSome = true)) ∧
    (s.clock.power = .held ∨ s.clock.power = .restore ∨ s.clock.power = .settle → s.attnLow = false) ∧
    (s.clock.power = .settle → (∀ f, (s.link.flags.get f).enabled = true) →
      ∃ t, exec .settleEnd s = .next t ∧ t.attnLow = true)

/-- A frame that cannot be taken waits, whatever command names it, and so does a frame that another command takes:
asleep or starting up, after a RESTART, or with the reply buffer full (R163, R178), nothing changes. The same holds
for a frame that names no request, and for one of a reply kind: that its removal waits for a free entry is DEDUCED
(log 14). A frame whose KIND names no request is refused with REFUSED_UNKNOWN; one of the replies' own kinds, 0x80
and above, is removed without a reply and takes no entry (R178). -/
def Obligations.FramesWaitOrAreUnknown : Prop :=
  ((∀ (s : State) (i : Instr) (kind : Byte), kindOfRequest i = some kind →
    (s.link.queue = [] ∨ s.awake = false ∨ s.link.restartTaken = true ∨ 4 ≤ s.link.entries ∨
      (∃ f rest, s.link.queue = f :: rest ∧ f.kind ≠ kind)) →
    exec i s = .next s) ∧
  ∀ s : State,
    (s.link.queue = [] ∨ s.awake = false ∨ s.link.restartTaken = true ∨ 4 ≤ s.link.entries →
      exec .unknownRequest s = .next s ∧ exec .replyKindFrameDrop s = .next s) ∧
    (∀ f rest, s.link.queue = f :: rest → 0x80 ≤ f.kind.toNat ∨ (requestOfKind f.kind).isSome = true →
      exec .unknownRequest s = .next s) ∧
    (∀ f rest, s.link.queue = f :: rest → f.kind.toNat < 0x80 → exec .replyKindFrameDrop s = .next s)) ∧
  (∀ (s : State) (f : Frame) (rest : List Frame) (kind : Byte), atHead kind f rest s →
    (kind.toNat < 0x80 → requestOfKind kind = none →
      exec .unknownRequest s = .next (arbitrate (replied f rest .refusedUnknown [] s))) ∧
    (0x80 ≤ kind.toNat → exec .replyKindFrameDrop s = .next (arbitrate { s with link.queue := rest })))

/-- A payload of another length than the request's is refused with REFUSED_LENGTH, and changes nothing (R178). SET_ITEM,
whose length is its item's, has its own statement. That this refusal comes before a request's others is DEDUCED (log
15). -/
def Obligations.WrongLengthIsRefused : Prop :=
  ∀ (s : State) (f : Frame) (rest : List Frame) (i : Instr) (kind : Byte) (n : Nat),
    (i, kind, n) ∈
      [(.identify, 0x01, 0), (.readStatus, 0x02, 0), (.readSlot, 0x03, 1), (.readMeters, 0x04, 0), (.readHire, 0x05, 0),
       (.readHistory, 0x06, 1), (.readStartLog, 0x07, 1), (.readIdle, 0x08, 0), (.openHire, 0x10, 4),
       (.closeHire, 0x11, 0), (.suspendHire, 0x12, 0), (.resumeHire, 0x13, 0), (.releaseHistory, 0x14, 4),
       (.releaseIdle, 0x15, 0), (.declareCondition, 0x18, 4), (.recordService, 0x20, 1), (.installUnit, 0x21, 5),
       (.enterSetup, 0x30, 0), (.readItem, 0x32, 1), (.arm, 0x33, 0), (.abandon, 0x34, 0), (.loadDefaults, 0x35, 0),
       (.clearAccounting, 0x36, 0), (.checkpoint, 0x40, 0), (.sleep, 0x41, 0), (.restart, 0x42, 0),
       (.noticeMask, 0x48, 2), (.clearFlags, 0x49, 2), (.stream, 0x4A, 4)] →
    atHead kind f rest s → f.payload.length ≠ n →
    exec i s = .next (arbitrate (replied f rest .refusedLength [] s))

/-- A tally of a running stream (R183): the tally count, the report formed when it reaches the period, the fall of a
finite count, and STREAM_ENDED at its end. STREAM (R183): refused above 600 tallies; a period of 0 stops the stream
and discards an unsent report; another period starts it with a tally count of 0, a count of 0 meaning UNENDING. That
a start keeps an unsent report is DEDUCED (log 27). -/
def Obligations.StreamIsSetAndReports : Prop :=
  (∀ (s : State) (p n k : Nat) (left : Option Nat), s.link.stream = some ⟨p, left, k⟩ →
    (k + 1 < p → streamTally s = { s with link.stream := some ⟨p, left, k + 1⟩ }) ∧
    (p ≤ k + 1 → left = none →
      streamTally s = { s with link.report := some (reportFields s), link.stream := some ⟨p, none, 0⟩ }) ∧
    (p ≤ k + 1 → left = some (n + 2) →
      streamTally s = { s with link.report := some (reportFields s), link.stream := some ⟨p, some (n + 1), 0⟩ }) ∧
    (p ≤ k + 1 → left = some 1 →
      streamTally s =
        raise .streamEnded .none { s with link.report := some (reportFields s), link.stream := none })) ∧
  (∀ (s : State) (f : Frame) (rest : List Frame) (period count : Nat), atHead 0x4A f rest s →
    f.payload = bytesOf 2 period ++ bytesOf 2 count → period < 65536 → count < 65536 →
    (600 < period → exec .stream s = .next (arbitrate (replied f rest .refusedRange [] s))) ∧
    (period = 0 →
      exec .stream s =
        .next (arbitrate (replied f rest .done [.num 2 0, .num 2 0]
          { s with link.stream := none, link.report := none }))) ∧
    (1 ≤ period → period ≤ 600 →
      exec .stream s =
        .next (arbitrate (replied f rest .done [.num 2 period, .num 2 count]
          { s with link.stream := some ⟨period, if count = 0 then none else some count, 0⟩ }))))

/-- R185: IDENTIFY and READ_STATUS, answered DONE at once with the fields of sections 11.7.3 and 11.7.4 as they stand,
or refused with REFUSED_LENGTH when they carry a payload. That READ_STATUS carries no E, as section 11.7.4 lists its
fields and against a sentence of R66, is the model's choice (log 33). R117: READ_IDLE, answered DONE at once with
the eight idle pool terms and the eight settled totals, or refused with REFUSED_LENGTH when it carries a payload. -/
def Obligations.IdentityStatusAndIdlePoolAreRead : Prop :=
  (∀ (s : State) (f : Frame) (rest : List Frame),
    (atHead 0x01 f rest s →
      exec .identify s =
        .next (arbitrate
          (if f.payload = [] then
            replied f rest .done
              [.num 2 0x5576, .num 2 0x0816, .num 1 0x01, .num 8 Config.serialNumber.toNat] s
          else replied f rest .refusedLength [] s))) ∧
    (atHead 0x02 f rest s →
      exec .readStatus s =
        .next (arbitrate
          (if f.payload = [] then
            replied f rest .done
              [.num 1 (if s.clock.power = .run then 0 else 1), .num 1 s.duty.engine.code, .num 1 s.duty.clutch.code,
                .num 1 s.duty.gear.val, .num 1 (if s.config.staging.isSome then 1 else 0),
                .num 2 s.config.generation, .num 1 (hireStateCode s.hires.current),
                .hireNo (s.hires.current.map (·.number)), .num 1 s.hires.history.length,
                .num 2 (flagWord fun g => (s.link.flags.get g).set.isSome),
                .num 2 (flagWord fun g => (s.link.flags.get g).enabled), .num 1 s.store.commit.code,
                .num 1 (s.store.usable.toList.filter id).length, .num 1 (if s.duty.fresh then 0 else 1),
                .num 1 s.conditions.code, .time s.clock.time] s
          else replied f rest .refusedLength [] s)))) ∧
  (∀ (s : State) (f : Frame) (rest : List Frame), atHead 0x08 f rest s →
    exec .readIdle s =
      .next (arbitrate
        (if f.payload = [] then
          replied f rest .done
            ([(0 : Slot), 1, 2, 3, 4, 5, 6, 7].map (fun k => Field.num 4 (s.hires.idle.get k)) ++
              [(0 : Slot), 1, 2, 3, 4, 5, 6, 7].map fun k => .num 4 (s.hires.settled.get k)) s
        else replied f rest .refusedLength [] s)))

/-- READ_METERS (R46), READ_HIRE (R114) and READ_SLOT (R93): DONE at once with the values as they stand; no open hire
and an index above 7 are refused. READ_HISTORY (R129), READ_START_LOG (R58) and READ_ITEM (R140): the entry at the
index, or REFUSED_RANGE; the staging set in SETUP and the armed set otherwise. A highest released number of 0 is
carried as present: DEDUCED (log 28). -/
def Obligations.RecordsAreRead : Prop :=
  (∀ (s : State) (f : Frame) (rest : List Frame),
    (atHead 0x04 f rest s → f.payload = [] →
      (let m := s.duty.meters
       let g := m.gearEngagements
       let c := s.starts.life
       exec .readMeters s =
        .next (arbitrate (replied f rest .done
          ([m.runTallies, m.ignitionTallies, m.stalls, m.clutchEngagements, m.lockLosses, g.g1, g.g2, g.g3, g.g4, g.g5,
            g.g6, g.g7, m.outputRevolutions, c.coldOk, c.warmOk, c.failed, c.reEngage, c.push].map (Field.num 4)) s)))) ∧
    (atHead 0x05 f rest s → f.payload = [] →
      (s.hires.current = none →
        exec .readHire s = .next (arbitrate (replied f rest .refusedNoHire [] s))) ∧
      (∀ h, s.hires.current = some h →
        exec .readHire s = .next (arbitrate (replied f rest .done (hireFields h) s)))) ∧
    (∀ b : Byte, atHead 0x03 f rest s → f.payload = [b] →
      (7 < b.toNat → exec .readSlot s = .next (arbitrate (replied f rest .refusedRange [] s))) ∧
      (∀ k : Slot, k.val = b.toNat →
        let c := s.config.armed.slots.get k
        let m := s.table.slots.get k
        exec .readSlot s =
          .next (arbitrate (replied f rest .done
            [.num 1 k.val, .num 1 c.law.code, .num 4 c.advisory, .num 2 c.limit, .num 4 m.total, .num 4 m.unitTotal,
              .num 4 m.sinceService, .num 1 m.residue,
              .num 1 ((if m.advisory then 1 else 0) + 2 * (if m.due then 1 else 0) + 4 * if m.frozen then 1 else 0),
              .num 4 m.services, .optTime m.lastService, .optTime m.installed] s))))) ∧
  (∀ (s : State) (f : Frame) (rest : List Frame) (b : Byte), f.payload = [b] →
    (atHead 0x06 f rest s →
      exec .readHistory s =
        .next (arbitrate
          (match s.hires.history[b.toNat]? with
            | none => replied f rest .refusedRange [] s
            | some m =>
              replied f rest .done
                ([.num 1 b.toNat, .num 1 s.hires.history.length, .hireNo (some s.hires.released)] ++ summaryFields m)
                s))) ∧
    (atHead 0x07 f rest s →
      exec .readStartLog s =
        .next (arbitrate
          (match s.starts.log[b.toNat]? with
            | none => replied f rest .refusedRange [] s
            | some e =>
              replied f rest .done
                ([.num 1 b.toNat, .num 1 s.starts.log.length,
                  .opt 4 (if s.starts.next < 4294967296 then some s.starts.next else none)] ++ startEntryFields e)
                s))) ∧
    (atHead 0x32 f rest s →
      exec .readItem s =
        .next (arbitrate
          (match itemOfId b.toNat with
            | none => replied f rest .refusedRange [] s
            | some i =>
              replied f rest .done
                ([.num 1 (if s.config.staging.isSome then 1 else 0), .num 2 s.config.generation, .num 1 i.number] ++
                  itemFields (s.config.staging.getD s.config.armed) i) s))))

/-- OPEN_HIRE (R103, R106): refused in SETUP and with the numbers EXHAUSTED; otherwise the open hire is closed with
cause SUPERSEDED, the new one opens under the next number, and the reply waits for the commit that holds both. -/
def Obligations.HiresAreOpened : Prop :=
  ∀ (s : State) (f : Frame) (rest : List Frame) (key : Nat), atHead 0x10 f rest s → f.payload = bytesOf 4 key →
    key < 4294967296 →
    (s.config.staging.isSome = true →
      exec .openHire s = .next (arbitrate (replied f rest .refusedSetupActive [] s))) ∧
    (s.config.staging = none → 4294967296 ≤ s.hires.next →
      exec .openHire s = .next (arbitrate (replied f rest .refusedRange [] s))) ∧
    (s.config.staging = none → s.hires.next < 4294967296 →
      let cls := decideClass s.config.armed key
      let closed := closeOpenHire .superseded s
      let h : HireRecord :=
        { number := s.hires.next, keyId := key, cls := cls, generation := s.config.generation,
          openTime := s.clock.time, suspended := false, main := Eight.all 0, recovery := none,
          counters := ⟨0, ⟨0, 0, 0, 0, 0⟩, 0, 0, 0, 0⟩ }
      exec .openHire s =
        .next (arbitrate (askCommit
          (replyWaits f rest
            (.kept
              [.hireNo (some s.hires.next), .num 1 cls.code, .num 2 s.config.generation,
                .hireNo (s.hires.current.map (·.number))])
            .nothing { closed with hires.current := some h, hires.next := s.hires.next + 1 }))))

/-- The class of a new hire (R107): the forced class; else that of the first enabled entry of the key-class table whose
prefix, on its base or its alternate base, the key id has; else CUSTOMER. -/
def Obligations.HireClassIsDecided : Prop :=
  ∀ (c : Settings) (key : Nat),
    let hits := fun (k : KeyClass) => k.enabled = true ∧
      (key / 2 ^ (32 - k.prefixLength) = k.base / 2 ^ (32 - k.prefixLength) ∨
        ∃ b, k.alternate = some b ∧ key / 2 ^ (32 - k.prefixLength) = b / 2 ^ (32 - k.prefixLength))
    (∀ x, c.policy.forced = some x → decideClass c key = x) ∧
    (c.policy.forced = none →
      (∀ i : Fin 8, hits (c.keys.get i) → (∀ j : Fin 8, j < i → ¬ hits (c.keys.get j)) →
        decideClass c key = (c.keys.get i).cls) ∧
      ((∀ i : Fin 8, ¬ hits (c.keys.get i)) → decideClass c key = .customer))

/-- The close of a hire (R111, R125): its summary joins the history, a full history first merging one pair; the 24th
entry raises HISTORY_NEAR_FULL with the number of the appended summary, a merge raises HISTORY_MERGED with the first
number of the merged summary (R127), a flag still set standing as it is and every other flag with it; the record
becomes absent and every other account stands. The merged summary of an older and a younger one, field by field
(R127). -/
def Obligations.ClosedHiresJoinTheHistory : Prop :=
  (∀ (s : State) (h : HireRecord) (cause : CloseCause), s.hires.current = some h →
    let t := closeOpenHire cause s
    let m : Summary :=
      { first := h.number, last := h.number, keyId := h.keyId, cls := .one h.cls, generation := h.generation,
        openTime := h.openTime, closeTime := s.clock.time, cause := cause, merged := 1, main := h.main,
        recovery := h.recovery, counters := h.counters }
    let raises := fun (f : Flag) (number : Nat) =>
      ((s.link.flags.get f).set = none →
        t.link.flags.get f =
          ⟨some ⟨.hire (some number), s.clock.time⟩, (s.link.flags.get f).enabled, (s.link.flags.get f).enabled⟩) ∧
      ((s.link.flags.get f).set.isSome = true → t.link.flags.get f = s.link.flags.get f) ∧
      ∀ g, g ≠ f → t.link.flags.get g = s.link.flags.get g
    t.hires.current = none ∧
    (s.hires.history.length < 32 → t.hires.history = s.hires.history ++ [m]) ∧
    (s.hires.history.length = 32 → ∃ (pre post : List Summary) (a b : Summary),
      s.hires.history = pre ++ a :: b :: post ∧ pre.length = pairToMerge s.hires.history ∧
      t.hires.history = pre ++ mergeSummaries a b :: (post ++ [m]) ∧ t.hires.history.length = 32 ∧
      raises .historyMerged a.first) ∧
    (s.hires.history.length = 23 → raises .historyNearFull h.number) ∧
    (s.hires.history.length < 32 → s.hires.history.length ≠ 23 → t.link.flags = s.link.flags) ∧
    t.hires.idle = s.hires.idle ∧ t.hires.settled = s.hires.settled ∧ t.hires.next = s.hires.next ∧
    t.hires.released = s.hires.released ∧ t.table = s.table ∧ t.duty = s.duty ∧ t.starts = s.starts ∧
    t.config = s.config ∧ t.clock = s.clock ∧ t.store = s.store ∧ t.inputs = s.inputs) ∧
  (∀ a b : Summary,
    let m := mergeSummaries a b
    let both := fun (f : HireCounters → Nat) => min (f a.counters + f b.counters) 4294967295
    m.first = a.first ∧ m.last = b.last ∧ m.keyId = (if a.keyId = b.keyId then a.keyId else 0) ∧
    m.cls = (if a.cls = b.cls then a.cls else .mixed) ∧
    m.generation = (if a.generation = b.generation then a.generation else 65535) ∧
    m.openTime = a.openTime ∧ m.closeTime = b.closeTime ∧ m.cause = b.cause ∧ m.merged = a.merged + b.merged ∧
    (∀ k, m.main.get k = a.main.get k + b.main.get k) ∧
    (a.recovery = none → b.recovery = none → m.recovery = none) ∧
    (a.recovery ≠ none ∨ b.recovery ≠ none → ∃ r, m.recovery = some r ∧
      ∀ k, r.get k = (a.recovery.getD (Eight.all 0)).get k + (b.recovery.getD (Eight.all 0)).get k) ∧
    m.counters.runTallies = both (·.runTallies) ∧ m.counters.starts.coldOk = both (·.starts.coldOk) ∧
    m.counters.starts.warmOk = both (·.starts.warmOk) ∧ m.counters.starts.failed = both (·.starts.failed) ∧
    m.counters.starts.reEngage = both (·.starts.reEngage) ∧ m.counters.starts.push = both (·.starts.push) ∧
    m.counters.stalls = both (·.stalls) ∧ m.counters.clutchEngagements = both (·.clutchEngagements) ∧
    m.counters.gearEngagements = both (·.gearEngagements) ∧
    m.counters.outputRevolutions = both (·.outputRevolutions))

/-- The choice of the pair to merge (R126): the oldest pair of equal classes other than CUSTOMER, else the oldest
CUSTOMER pair of one key id, else the two oldest. -/
def Obligations.MergedPairIsChosen : Prop :=
  ∀ (pre post : List Summary) (a b : Summary),
    let h := pre ++ a :: b :: post
    let kind := fun (x y : Summary) => x.cls = y.cls ∧ x.cls ≠ .one .customer
    let same := fun (x y : Summary) => x.cls = .one .customer ∧ y.cls = .one .customer ∧ x.keyId = y.keyId
    let first := fun (p : Summary → Summary → Prop) =>
      p a b ∧ ∀ (l r : List Summary) (x y : Summary), h = l ++ x :: y :: r → l.length < pre.length → ¬ p x y
    let never := fun (p : Summary → Summary → Prop) =>
      ∀ (l r : List Summary) (x y : Summary), h = l ++ x :: y :: r → ¬ p x y
    (first kind → pairToMerge h = pre.length) ∧
    (never kind → first same → pairToMerge h = pre.length) ∧
    (never kind → never same → pairToMerge h = 0)

/-- CLOSE_HIRE (R110): refused without a hire; otherwise the close, with the summary of this hire in the reply that
waits, and whether two older ones were merged. SUSPEND_HIRE and RESUME_HIRE (R108, R109): refused without a hire,
answered at once in the state asked for, else the change of state, recovery deltas of 0 created at the first
suspension. -/
def Obligations.HiresAreClosedSuspendedAndResumed : Prop :=
  (∀ (s : State) (f : Frame) (rest : List Frame), atHead 0x11 f rest s → f.payload = [] →
    (s.hires.current = none → exec .closeHire s = .next (arbitrate (replied f rest .refusedNoHire [] s))) ∧
    (∀ h, s.hires.current = some h →
      exec .closeHire s =
        .next (arbitrate (askCommit
          (replyWaits f rest
            (.kept
              (.num 1 (if 32 ≤ s.hires.history.length then 1 else 0) ::
                summaryFields (summaryOf h .hostClose s.clock.time)))
            .nothing (closeOpenHire .hostClose s)))))) ∧
  (∀ (s : State) (f : Frame) (rest : List Frame) (suspend : Bool),
    let c : Instr := if suspend then .suspendHire else .resumeHire
    atHead (if suspend then 0x12 else 0x13) f rest s → f.payload = [] →
    (s.hires.current = none → exec c s = .next (arbitrate (replied f rest .refusedNoHire [] s))) ∧
    (∀ h, s.hires.current = some h → h.suspended = suspend →
      exec c s =
        .next (arbitrate (replied f rest .done [.hireNo (some h.number), .num 1 (if suspend then 2 else 1)] s))) ∧
    (∀ h, s.hires.current = some h → h.suspended ≠ suspend →
      exec c s =
        .next (arbitrate (askCommit
          (replyWaits f rest (.kept [.hireNo (some h.number), .num 1 (if suspend then 2 else 1)]) .nothing
            { s with
              hires.current := some
                { h with
                  suspended := suspend,
                  recovery := if suspend then some (h.recovery.getD (Eight.all 0)) else h.recovery } })))))

/-- RELEASE_HISTORY (R131, R132): the summaries at the front up to hire n leave, their wear moves to the settled totals,
and the highest released number becomes the last one's; with none to remove, DONE at once and nothing changes. A
highest released number of 0 is carried as present: DEDUCED (log 28). RELEASE_IDLE (R118): each term of the pool
joins the settled total of its slot and becomes 0, and the reply that waits carries the amounts. -/
def Obligations.AccountsAreReleased : Prop :=
  (∀ (s : State) (f : Frame) (waiting : List Frame) (out kept : List Summary) (n : Nat),
    atHead 0x14 f waiting s → f.payload = bytesOf 4 n → n < 4294967296 → s.hires.history = out ++ kept →
    (∀ m ∈ out, m.last ≤ n) → (∀ m, kept.head? = some m → n < m.last) →
    (out = [] →
      exec .releaseHistory s =
        .next (arbitrate (replied f waiting .done
          ([.num 1 0, .hireNo (some s.hires.released)] ++ List.replicate 8 (.num 4 0)) s))) ∧
    (∀ newest, out.getLast? = some newest →
      let moved : Eight Nat := Eight.ofFn fun k =>
        (out.map fun m => m.main.get k + (m.recovery.getD (Eight.all 0)).get k).sum
      exec .releaseHistory s =
        .next (arbitrate (askCommit
          (replyWaits f waiting
            (.kept
              ([.num 1 out.length, .hireNo (some newest.last)] ++
                [(0 : Slot), 1, 2, 3, 4, 5, 6, 7].map fun k => .num 4 (moved.get k)))
            .nothing
            { s with
              hires.history := kept, hires.released := newest.last,
              hires.settled := Eight.ofFn fun k => s.hires.settled.get k + moved.get k }))))) ∧
  (∀ (s : State) (f : Frame) (rest : List Frame), atHead 0x15 f rest s → f.payload = [] →
    exec .releaseIdle s =
      .next (arbitrate (askCommit
        (replyWaits f rest (.kept ([(0 : Slot), 1, 2, 3, 4, 5, 6, 7].map fun k => .num 4 (s.hires.idle.get k))) .nothing
          { s with
            hires.settled := Eight.ofFn fun k => s.hires.settled.get k + s.hires.idle.get k,
            hires.idle := Eight.all 0 }))))

/-- DECLARE_CONDITION (R41, R42): a load and an optional coolant temperature; a code or a mismatch of presence and value
is refused; a temperature makes the coolant FRESH for 2,500 ticks, its absence STALE, which raises CONDITION_STALE
only from FRESH. RECORD_SERVICE (R89) and INSTALL_UNIT (R90) on slot k, and their refusal above 7: the meters they
set and the marks cleared, every other meter of the slot, every other slot and every account standing; the reply
waits for the commit (R91). -/
def Obligations.ConditionsServicesAndUnitsAreRecorded : Prop :=
  (∀ (s : State) (f : Frame) (rest : List Frame) (load presence : Byte) (value : Nat),
    atHead 0x18 f rest s → f.payload = load :: presence :: bytesOf 2 value → value < 65536 →
    (2 < load.toNat ∨ 1 < presence.toNat ∨ presence = 0 ∧ value ≠ 0 →
      exec .declareCondition s = .next (arbitrate (replied f rest .refusedRange [] s))) ∧
    (∀ l : LoadState, l.code = load.toNat → presence = 1 →
      let t : Int := if value < 32768 then value else value - 65536
      let stored : Int := max (-40) (min 150 t)
      exec .declareCondition s =
        .next (arbitrate (replied f rest .done [.optTemp (some stored), .num 1 0, .num 1 load.toNat]
          { s with duty.load := l, duty.coolant := some stored, duty.fresh := true, duty.freshTimer := 2500 }))) ∧
    (∀ l : LoadState, l.code = load.toNat → presence = 0 → value = 0 →
      let gone := { s with duty.load := l, duty.fresh := false, duty.freshTimer := 0 }
      exec .declareCondition s =
        .next (arbitrate (replied f rest .done [.optTemp s.duty.coolant, .num 1 1, .num 1 load.toNat]
          (if s.duty.fresh then raise .conditionStale .none gone else { s with duty.load := l }))))) ∧
  (∀ (s : State) (f : Frame) (rest : List Frame) (b : Byte),
    (atHead 0x20 f rest s → f.payload = [b] → 7 < b.toNat →
      exec .recordService s = .next (arbitrate (replied f rest .refusedRange [] s))) ∧
    (∀ k : Slot, atHead 0x20 f rest s → f.payload = [b] → k.val = b.toNat →
      let m := s.table.slots.get k
      let n := min (m.services + 1) 4294967295
      exec .recordService s =
        .next (arbitrate (askCommit
          (replyWaits f rest (.kept [.num 1 k.val, .num 4 n, .time s.clock.time]) .nothing
            (formLamps
              { s with
                table.slots := s.table.slots.set k
                  { m with
                    sinceService := 0, services := n, lastService := some s.clock.time, advisory := false,
                    due := false } }))))) ∧
    (∀ carried : Nat, carried < 4294967296 → atHead 0x21 f rest s → f.payload = b :: bytesOf 4 carried →
      (7 < b.toNat → exec .installUnit s = .next (arbitrate (replied f rest .refusedRange [] s))) ∧
      (∀ k : Slot, k.val = b.toNat →
        exec .installUnit s =
          .next (arbitrate (askCommit
            (replyWaits f rest (.kept [.num 1 k.val, .num 4 carried, .time s.clock.time]) .nothing
              (formLamps
                { s with
                  table.slots := s.table.slots.set k
                    { s.table.slots.get k with
                      unitTotal := carried, sinceService := 0, installed := some s.clock.time, advisory := false,
                      due := false } })))))))

/-- ENTER_SETUP (R138), ABANDON (R145) and LOAD_DEFAULTS (R146): the staging set created as a copy of the armed one,
kept if it exists, dropped, or replaced by the factory set; an open hire and ARMED mode are the refusals; nothing
else changes, and the factory set passes the tests of ARM. SET_ITEM (R139): refused outside SETUP, without a
payload, for an identifier that names no item, a length that is not its item's, or a code outside its values;
otherwise the item as a whole is replaced in the staging set and read back as stored. The order of these refusals is
DEDUCED (log 15). The codes that SET_ITEM refuses with REFUSED_RANGE, item by item (R139): a law above 5, a severity
map with one of bits 4 to 7, an edge above 2, a polarity, yes/no field or presence byte above 1, a class above
WORKSHOP (MIXED among them), a close byte with one of bits 3 to 7, an optional field carried as absent with a
nonzero value. The other items refuse nothing. A numeric field outside its range is stored as the nearest end of the
range (R139, R141), item by item. Bit k of a slot map stands for slot k: the model's choice (log 34). -/
def Obligations.StagingIsEdited : Prop :=
  (∀ (s : State) (f : Frame) (rest : List Frame), f.payload = [] →
    (atHead 0x30 f rest s →
      exec .enterSetup s =
        .next (arbitrate
          (if s.hires.current.isSome then replied f rest .refusedHireOpen [] s
          else
            replied f rest .done [.num 2 s.config.generation]
              { s with config.staging := some (s.config.staging.getD s.config.armed) }))) ∧
    (atHead 0x34 f rest s →
      exec .abandon s =
        .next (arbitrate (replied f rest .done [.num 2 s.config.generation] { s with config.staging := none }))) ∧
    (atHead 0x35 f rest s →
      exec .loadDefaults s =
        .next (arbitrate
          (if s.config.staging.isSome then
            replied f rest .done [] { s with config.staging := some factorySettings }
          else replied f rest .refusedNotInSetup [] s))) ∧
    firstFailing factorySettings = none) ∧
  (∀ (s : State) (f : Frame) (rest : List Frame), atHead 0x31 f rest s →
    (s.config.staging = none → exec .setItem s = .next (arbitrate (replied f rest .refusedNotInSetup [] s))) ∧
    (∀ st : Settings, s.config.staging = some st → f.payload = [] →
      exec .setItem s = .next (arbitrate (replied f rest .refusedLength [] s))) ∧
    (∀ (st : Settings) (b : Byte) (bytes : List Byte), s.config.staging = some st → f.payload = b :: bytes →
      (itemOfId b.toNat = none → exec .setItem s = .next (arbitrate (replied f rest .refusedRange [] s))) ∧
      (∀ i, itemOfId b.toNat = some i →
        (bytes.length ≠ i.length →
          exec .setItem s = .next (arbitrate (replied f rest .refusedLength [] s))) ∧
        (∀ vs, splitFields i.widths bytes = some vs → itemOfFields i vs = none →
          exec .setItem s = .next (arbitrate (replied f rest .refusedRange [] s))) ∧
        (∀ vs v, splitFields i.widths bytes = some vs → itemOfFields i vs = some v →
          exec .setItem s =
            .next (arbitrate (replied f rest .done (.num 1 b.toNat :: itemFields (storeItem st v) i)
              { s with config.staging := some (storeItem st v) })))))) ∧
  (let badEntry := fun (p n t : Nat) => 1 < p ∨ p = 0 ∧ (n ≠ 0 ∨ t ≠ 0)
  (∀ (k : Slot) (law map advisory limit a b c d e f g h : Nat),
    let vs := [law, a, b, c, d, e, f, g, h, map, advisory, limit]
    (itemOfFields (.slot k) vs = none ↔ 5 < law ∨ 15 < map) ∧
    ∀ (l : Law) (m : Conditions), l.code = law → m.code = map →
      itemOfFields (.slot k) vs = some (.slot k ⟨l, ⟨a, b, c, d, e, f, g, h⟩, m, advisory, limit⟩)) ∧
  (∀ p1 n1 t1 p2 n2 t2 p3 n3 t3 p4 n4 t4 p5 n5 t5 p6 n6 t6 : Nat,
    itemOfFields .gears [p1, n1, t1, p2, n2, t2, p3, n3, t3, p4, n4, t4, p5, n5, t5, p6, n6, t6] = none ↔
      badEntry p1 n1 t1 ∨ badEntry p2 n2 t2 ∨ badEntry p3 n3 t3 ∨ badEntry p4 n4 t4 ∨ badEntry p5 n5 t5 ∨
        badEntry p6 n6 t6) ∧
  gearEntryOf 0 0 0 = some none ∧
  (∀ (c : Shaft) (ppr edge interval stall : Nat),
    itemOfFields (.channel c) [ppr, edge, interval, stall] = none ↔ 2 < edge) ∧
  (∀ (l : SwitchLine) (polarity n : Nat), itemOfFields (.line l) [polarity, n] = none ↔ 1 < polarity) ∧
  (∀ (m : LampId) (map period duty polarity : Nat),
    itemOfFields (.lamp m) [map, period, duty, polarity] = none ↔ 1 < polarity) ∧
  (∀ (k : Fin 8) (enabled base n presence alternate cls : Nat),
    let vs := [enabled, base, n, presence, alternate, cls]
    (itemOfFields (.keyClass k) vs = none ↔
      1 < enabled ∨ 1 < presence ∨ presence = 0 ∧ alternate ≠ 0 ∨ 2 < cls) ∧
    ∀ x : HireClass, enabled ≤ 1 → presence = 0 → alternate = 0 → x.code = cls →
      itemOfFields (.keyClass k) vs = some (.keyClass k ⟨enabled == 1, base, min 32 n, none, x⟩)) ∧
  (∀ presence cls closes : Nat,
    let bits := fun (x : Option HireClass) =>
      ItemValue.policy ⟨x, closes.testBit 0, closes.testBit 1, closes.testBit 2⟩
    (itemOfFields .policy [presence, cls, closes] = none ↔
      1 < presence ∨ presence = 0 ∧ cls ≠ 0 ∨ presence = 1 ∧ 2 < cls ∨ 7 < closes) ∧
    (closes ≤ 7 → presence = 0 → cls = 0 →
      itemOfFields .policy [presence, cls, closes] = some (bits none)) ∧
    ∀ x : HireClass, closes ≤ 7 → presence = 1 → x.code = cls →
      itemOfFields .policy [presence, cls, closes] = some (bits (some x))) ∧
  (∀ checkpoint doze wake : Nat, itemOfFields .timing [checkpoint, doze, wake] = none ↔ 1 < wake) ∧
  (∀ checkpoint doze : Nat,
    itemOfFields .timing [checkpoint, doze, 0] =
      some (.timing ⟨max 10 (min 3600 checkpoint), max 10 (min 65535 doze), false⟩))) ∧
  (let lim := fun (low high n : Nat) => max low (min high n)
  let temp := fun (n : Nat) => max (-40) (min 150 (if n < 32768 then (n : Int) else (n : Int) - 65536))
  (∀ a b c d e f g h : Nat,
    itemOfFields .bands [a, b, c, d, e, f, g, h] =
      some (.bands ⟨lim 0 12000 a, lim 0 12000 b, lim 0 12000 c, lim 0 12000 d, lim 0 12000 e, lim 0 12000 f, lim 0 12000 g,
        lim 0 12000 h⟩)) ∧
  (∀ n t : Nat, gearEntryOf 1 n t = some (some ⟨lim 1 30000 n, lim 1 2000 t⟩)) ∧
  (∀ a b c : Nat,
    itemOfFields .engine [a, b, c] = some (.engine ⟨lim 100 3000 a, lim 50 2999 b, lim 100 5000 c⟩)) ∧
  (∀ a b : Nat,
    itemOfFields .clutch [a, b] = some (.clutch ⟨lim 0 500 a, lim 50 2000 b⟩) ∧
    itemOfFields .shift [a, b] = some (.shift ⟨lim 100 3000 a, lim 1 500 b⟩)) ∧
  (∀ (c : Shaft) (e : ActiveEdge) (ppr interval stall : Nat),
    itemOfFields (.channel c) [ppr, e.code, interval, stall] =
      some (.channel c ⟨lim 1 255 ppr, e, interval, lim 10 2000 stall⟩)) ∧
  (∀ (l : SwitchLine) (p : Polarity) (n : Nat),
    itemOfFields (.line l) [p.code, n] = some (.line l ⟨p, lim 0 255 n⟩)) ∧
  (∀ cold hot low a b c d : Nat,
    itemOfFields .conditions [cold, hot, low, a, b, c, d] =
      some (.conditions ⟨temp cold, temp hot, lim 0 32000 low, lim 0 3 a, lim 0 3 b, lim 0 3 c, lim 0 3 d⟩)) ∧
  (∀ (m : LampId) (p : Polarity) (map period duty : Nat),
    itemOfFields (.lamp m) [map, period, duty, p.code] =
      some (.lamp m ⟨Eight.ofFn fun k => map.testBit k.val, lim 1 255 period, duty, p⟩)) ∧
  (∀ (k : Fin 8) (c : HireClass) (base n alternate : Nat),
    itemOfFields (.keyClass k) [1, base, n, 1, alternate, c.code] =
      some (.keyClass k ⟨true, base, lim 0 32 n, some alternate, c⟩)) ∧
  (∀ checkpoint doze : Nat,
    itemOfFields .timing [checkpoint, doze, 1] = some (.timing ⟨lim 10 3600 checkpoint, lim 10 65535 doze, true⟩)))

/-- The tests of ARM (R142), item by item in ascending order of identifier: the band edges, the gear table, the engine
speeds, the coolant limits. ARM (R142 to R144): refused outside SETUP and on the first item that fails its test,
which leaves every set as it is; a set equal to the armed one leaves SETUP without a swap. Another one becomes the
armed set, the generation rises up to 65,534, every slot's marks are re-evaluated under the new thresholds (R87)
with the flags of those newly set, the lamps are formed (R98), and each block applies the new values to what runs.
What a swap brings at once to what runs, within the step of ARM: DEDUCED (log 18). A new stall time stalls a channel
whose item has changed and whose elapsed time has reached it (R10), the order of ENG, INP, engine and clutch being
free (log 6); then a confirm or lock timer whose item has changed expires if the new count of ticks has passed (R30,
R36). That the stalls come before the expiries is the model's choice (log 44). -/
def Obligations.StagingIsArmed : Prop :=
  (∀ c : Settings,
    let bands := c.bands.s0 = 0 ∧ ∀ i j : Fin 8, i < j → c.bands.get i < c.bands.get j
    let gears :=
      (∀ (pre post : List (Option GearEntry)) (g : GearEntry), c.gears.toList = pre ++ none :: post →
        some g ∉ post) ∧
      (∀ (pre mid post : List (Option GearEntry)) (g h : GearEntry),
        c.gears.toList = pre ++ some g :: (mid ++ some h :: post) →
        h.nominal < g.nominal ∧
          ¬ (g.nominal ≤ h.nominal + g.tolerance ∧ h.nominal ≤ g.nominal + g.tolerance) ∧
          ¬ (h.nominal ≤ g.nominal + h.tolerance ∧ g.nominal ≤ h.nominal + h.tolerance))
    let engine := c.engine.stallSpeed < c.engine.runSpeed
    let limits := c.conditions.coldLimit < c.conditions.hotLimit
    (firstFailing c = some 8 ↔ ¬ bands) ∧ (firstFailing c = some 9 ↔ bands ∧ ¬ gears) ∧
    (firstFailing c = some 10 ↔ bands ∧ gears ∧ ¬ engine) ∧
    (firstFailing c = some 20 ↔ bands ∧ gears ∧ engine ∧ ¬ limits) ∧
    (firstFailing c = none ↔ bands ∧ gears ∧ engine ∧ limits)) ∧
  (∀ (s : State) (f : Frame) (rest : List Frame), atHead 0x33 f rest s → f.payload = [] →
    (s.config.staging = none → exec .arm s = .next (arbitrate (replied f rest .refusedNotInSetup [] s))) ∧
    (∀ (new : Settings) (id : Nat), s.config.staging = some new → firstFailing new = some id →
      exec .arm s = .next (arbitrate (replied f rest .refusedInvalidConfig [.num 1 id] s))) ∧
    (s.config.staging = some s.config.armed → firstFailing s.config.armed = none →
      exec .arm s =
        .next (arbitrate (replied f rest .done [.num 2 s.config.generation] { s with config.staging := none }))) ∧
    (∀ new : Settings, s.config.staging = some new → firstFailing new = none → new ≠ s.config.armed →
      let old := s.config.armed
      let generation := min (s.config.generation + 1) 65534
      let ep := if new.chOut.edge = .both then 2 * new.chOut.ppr else new.chOut.ppr
      let swapped : State :=
        { s with
          link.queue := rest, config := { armed := new, staging := none, generation := generation },
          inputs.outRemainder :=
            if old.chOut ≠ new.chOut ∧ ep ≤ s.inputs.outRemainder then 0 else s.inputs.outRemainder,
          table.slots := Eight.ofFn fun k =>
            { s.table.slots.get k with
              advisory := (new.slots.get k).advisory != 0 &&
                decide ((new.slots.get k).advisory ≤ (s.table.slots.get k).sinceService),
              due := (new.slots.get k).limit != 0 &&
                decide ((new.slots.get k).limit * 65536 ≤ (s.table.slots.get k).sinceService) } }
      exec .arm s =
        .next (arbitrate (askCommit
          (replyWaits f rest (.kept [.num 2 generation]) .nothing
            (rearmTimers old (restallAll old (rearmLamps old (raiseMarks s.table.slots swapped))))))))) ∧
  (∀ (old : Settings) (s : State),
    (let stall := fun (c : Shaft) (first : Bool) (u : State) =>
      if old.channel c = u.config.armed.channel c then u else takeStall c first u
     ∃ first inpFirst : Bool,
      let out := stall .out first { s with freePicks := s.freePicks + 1 }
      restallAll old s =
        (if inpFirst then stall .eng first (stall .inp first out) else stall .inp first (stall .eng first out))) ∧
    (let confirmed : State :=
      match s.duty.engine, s.duty.confirmTimer with
      | .confirming, some n =>
        if old.engine ≠ s.config.armed.engine ∧ (s.config.armed.engine.confirmMs + 3) / 4 ≤ n then
          let cls : AttemptClass := match s.starts.attempt with
            | some a =>
              if a.kind = AttemptKind.push then AttemptClass.push else if a.cold then .coldOk else .warmOk
            | none => .warmOk
          { closeAttempt cls s with duty.engine := .running, duty.confirmTimer := none }
        else s
      | _, _ => s
     rearmTimers old s =
      match confirmed.duty.clutch, confirmed.duty.lockTimer with
      | .slipping, some n =>
        if old.clutch ≠ s.config.armed.clutch ∧ (s.config.armed.clutch.lockMs + 3) / 4 ≤ n then
          { confirmed with duty.clutch := .locked, duty.lockTimer := none }
        else confirmed
      | _, _ => confirmed))

/-- CLEAR_ACCOUNTING (R147, R148): refused outside SETUP, then with IGN active; otherwise every account, meter and log
is cleared and nothing else, the numbering kept. -/
def Obligations.AccountsAreCleared : Prop :=
  ∀ (s : State) (f : Frame) (rest : List Frame), atHead 0x36 f rest s → f.payload = [] →
    (s.config.staging = none →
      exec .clearAccounting s = .next (arbitrate (replied f rest .refusedNotInSetup [] s))) ∧
    (s.config.staging.isSome = true → s.inputs.ign.level = true →
      exec .clearAccounting s = .next (arbitrate (replied f rest .refusedIgnition [] s))) ∧
    (s.config.staging.isSome = true → s.inputs.ign.level = false →
      exec .clearAccounting s =
        .next (arbitrate (askCommit
          (replyWaits f rest (.kept []) .nothing
            (formLamps
              { s with
                table.slots := Eight.all ⟨0, 0, 0, 0, false, false, false, 0, none, none⟩,
                hires.idle := Eight.all 0, hires.settled := Eight.all 0, hires.history := [],
                hires.released := s.hires.next - 1,
                starts.log := [], starts.life := ⟨0, 0, 0, 0, 0⟩,
                duty.meters := ⟨0, 0, 0, 0, 0, ⟨0, 0, 0, 0, 0, 0, 0⟩, 0⟩,
                inputs.outPending := 0 })))))

/-- CHECKPOINT (R168), SLEEP (R156) and RESTART (R163): the replies that wait for a commit, the sleep pending, and the
end of taking requests. SLEEP is refused with IGN active, and with the engine, CRK or OUT not at rest. An earlier
sleep pending gives way to that of a later SLEEP, whose reply then makes nothing ready: DEDUCED (log 16). -/
def Obligations.CheckpointSleepAndRestart : Prop :=
  ∀ (s : State) (f : Frame) (rest : List Frame), f.payload = [] →
    (atHead 0x40 f rest s →
      exec .checkpoint s = .next (arbitrate (askCommit (replyWaits f rest .checkpoint .nothing s)))) ∧
    (atHead 0x42 f rest s →
      exec .restart s =
        .next (arbitrate (askCommit
          (replyWaits f rest (.kept []) .startUp { s with link.restartTaken := true })))) ∧
    (atHead 0x41 f rest s →
      (s.inputs.ign.level = true →
        exec .sleep s = .next (arbitrate (replied f rest .refusedIgnition [] s))) ∧
      (s.inputs.ign.level = false →
        s.duty.engine ≠ .off ∨ s.inputs.crk.level = true ∨ s.inputs.out.st ≠ .stalled →
        exec .sleep s = .next (arbitrate (replied f rest .refusedEngine [] s))) ∧
      (s.inputs.ign.level = false → s.duty.engine = .off → s.inputs.crk.level = false →
        s.inputs.out.st = .stalled →
        let after := fun (a : AfterReply) => if a = .sleepLive then .sleepReplaced else a
        exec .sleep s =
          .next (arbitrate (askCommit
            (replyWaits f rest .sleepOutcome .sleepLive
              { s with
                clock.sleep :=
                  some ⟨.request, .commit (if s.store.commit = .idle then .current else .next), false, false⟩,
                link.deferred := s.link.deferred.map fun d => { d with after := after d.after },
                link.ready := s.link.ready.map fun r => { r with after := after r.after },
                link.tx := s.link.tx.map fun x =>
                  match x.source with
                  | .reply a => { x with source := .reply (after a) }
                  | _ => x })))))
end

