-- ==== Sys2Proof/Laws/Rows.lean ====
section
/-! SUPPORT. The small laws of the fixed rows: what is read at an index after a row is built, set or mapped, and that
rows equal at every index are equal. -/

namespace Sys2Proof

@[simp] theorem Eight.get_ofFn {α : Type} (f : Fin 8 → α) (k : Fin 8) : (Eight.ofFn f).get k = f k := by
  match k with
  | 0 | 1 | 2 | 3 | 4 | 5 | 6 | 7 => rfl

@[simp] theorem Eight.get_all {α : Type} (a : α) (k : Fin 8) : (Eight.all a).get k = a := by
  match k with
  | 0 | 1 | 2 | 3 | 4 | 5 | 6 | 7 => rfl

@[simp] theorem Eight.get_set {α : Type} (e : Eight α) (j k : Fin 8) (a : α) :
    (e.set j a).get k = if k = j then a else e.get k := by
  simp [Eight.set]

@[simp] theorem Eight.get_map {α β : Type} (f : α → β) (e : Eight α) (k : Fin 8) :
    (Eight.map f e).get k = f (e.get k) := by
  simp [Eight.map]

@[simp] theorem Eight.get_zip {α β γ : Type} (f : α → β → γ) (a : Eight α) (b : Eight β) (k : Fin 8) :
    (Eight.zip f a b).get k = f (a.get k) (b.get k) := by
  simp [Eight.zip]

/-- Rows equal at every index are equal. -/
theorem Eight.ext_get {α : Type} {a b : Eight α} (h : ∀ k, a.get k = b.get k) : a = b := by
  obtain ⟨a0, a1, a2, a3, a4, a5, a6, a7⟩ := a
  obtain ⟨b0, b1, b2, b3, b4, b5, b6, b7⟩ := b
  have h0 := h 0; have h1 := h 1; have h2 := h 2; have h3 := h 3
  have h4 := h 4; have h5 := h 5; have h6 := h 6; have h7 := h 7
  simp only [Eight.get] at h0 h1 h2 h3 h4 h5 h6 h7
  simp [*]

@[simp] theorem Eight.ofFn_get {α : Type} (e : Eight α) : Eight.ofFn (fun k => e.get k) = e :=
  Eight.ext_get fun k => by simp

/-- A test of all entries is a test at every index. -/
theorem Eight.all_toList {α : Type} (p : α → Bool) (e : Eight α) :
    e.toList.all p = true ↔ ∀ k, p (e.get k) = true := by
  constructor
  · intro h k
    simp only [Eight.toList, List.all_cons, List.all_nil, Bool.and_true, Bool.and_eq_true] at h
    obtain ⟨h0, h1, h2, h3, h4, h5, h6, h7⟩ := h
    match k with
    | 0 => exact h0
    | 1 => exact h1
    | 2 => exact h2
    | 3 => exact h3
    | 4 => exact h4
    | 5 => exact h5
    | 6 => exact h6
    | 7 => exact h7
  · intro h
    have h0 := h 0; have h1 := h 1; have h2 := h 2; have h3 := h 3
    have h4 := h 4; have h5 := h 5; have h6 := h 6; have h7 := h 7
    simp only [Eight.get] at h0 h1 h2 h3 h4 h5 h6 h7
    simp [Eight.toList, *]

/-- An index is listed exactly when its entry passes the test. -/
@[simp] theorem Eight.mem_indices {α : Type} (p : α → Bool) (e : Eight α) (k : Slot) :
    k ∈ e.indices p ↔ p (e.get k) = true := by
  simp only [Eight.indices, List.mem_filter, and_iff_right_iff_imp]
  intro _
  match k with
  | 0 | 1 | 2 | 3 | 4 | 5 | 6 | 7 => decide

@[simp] theorem Four.get_ofFn {α : Type} (f : Fin 4 → α) (k : Fin 4) : (Four.ofFn f).get k = f k := by
  match k with
  | 0 | 1 | 2 | 3 => rfl

@[simp] theorem Four.get_all {α : Type} (a : α) (k : Fin 4) : (Four.all a).get k = a := by
  match k with
  | 0 | 1 | 2 | 3 => rfl

@[simp] theorem Four.get_set {α : Type} (e : Four α) (j k : Fin 4) (a : α) :
    (e.set j a).get k = if k = j then a else e.get k := by
  simp [Four.set]

namespace Machine

@[simp] theorem FlagTable.get_ofFn (f : Flag → FlagState) (g : Flag) : (FlagTable.ofFn f).get g = f g := by
  cases g <;> rfl

@[simp] theorem FlagTable.get_set (t : FlagTable) (f g : Flag) (v : FlagState) :
    (t.set f v).get g = if g = f then v else t.get g := by
  simp [FlagTable.set]

/-- Flag tables equal at every flag are equal. -/
theorem FlagTable.ext_get {a b : FlagTable} (h : ∀ f, a.get f = b.get f) : a = b := by
  cases a; cases b
  have h1 := h .startLogged; have h2 := h .slotAdvisory; have h3 := h .slotDue; have h4 := h .slotFrozen
  have h5 := h .hireAutoClosed; have h6 := h .historyNearFull; have h7 := h .historyMerged
  have h8 := h .conditionStale; have h9 := h .supplyWarning; have h10 := h .retentionFault
  have h11 := h .restored; have h12 := h .linkOverrun; have h13 := h .streamEnded
  simp only [FlagTable.get] at h1 h2 h3 h4 h5 h6 h7 h8 h9 h10 h11 h12 h13
  simp [*]

end Machine

end Sys2Proof
end

