-- ==== Sys2Proof/Laws/State.lean ====
section
/-! SUPPORT. Frames: what each shared operation leaves as it was, one lemma per operation, so that no later proof unfolds
an operation to learn what it does not touch. -/

namespace Sys2Proof.Machine

open Sys2Proof

@[simp] theorem raise_frame (f : Flag) (d : Detail) (s : State) :
    (raise f d s).inputs = s.inputs ∧
    (raise f d s).duty = s.duty ∧
    (raise f d s).starts = s.starts ∧
    (raise f d s).table = s.table ∧
    (raise f d s).hires = s.hires ∧
    (raise f d s).config = s.config ∧
    (raise f d s).clock = s.clock ∧
    (raise f d s).store = s.store ∧
    (raise f d s).freePicks = s.freePicks ∧
    (raise f d s).pending = s.pending ∧
    (raise f d s).link.baudselHigh = s.link.baudselHigh ∧
    (raise f d s).link.rx = s.link.rx ∧
    (raise f d s).link.queue = s.link.queue ∧
    (raise f d s).link.deferred = s.link.deferred ∧
    (raise f d s).link.ready = s.link.ready ∧
    (raise f d s).link.taken = s.link.taken ∧
    (raise f d s).link.restartTaken = s.link.restartTaken ∧
    (raise f d s).link.stream = s.link.stream ∧
    (raise f d s).link.report = s.link.report ∧
    (raise f d s).link.tx = s.link.tx := ⟨rfl, rfl, rfl, rfl, rfl, rfl, rfl, rfl, rfl, rfl, rfl, rfl, rfl, rfl, rfl, rfl, rfl, rfl, rfl, rfl⟩

@[simp] theorem raiseForSlots_frame (f : Flag) (ks : List Slot) (s : State) :
    (raiseForSlots f ks s).inputs = s.inputs ∧
    (raiseForSlots f ks s).duty = s.duty ∧
    (raiseForSlots f ks s).starts = s.starts ∧
    (raiseForSlots f ks s).table = s.table ∧
    (raiseForSlots f ks s).hires = s.hires ∧
    (raiseForSlots f ks s).config = s.config ∧
    (raiseForSlots f ks s).clock = s.clock ∧
    (raiseForSlots f ks s).store = s.store ∧
    (raiseForSlots f ks s).pending = s.pending ∧
    (raiseForSlots f ks s).link.baudselHigh = s.link.baudselHigh ∧
    (raiseForSlots f ks s).link.rx = s.link.rx ∧
    (raiseForSlots f ks s).link.queue = s.link.queue ∧
    (raiseForSlots f ks s).link.deferred = s.link.deferred ∧
    (raiseForSlots f ks s).link.ready = s.link.ready ∧
    (raiseForSlots f ks s).link.taken = s.link.taken ∧
    (raiseForSlots f ks s).link.restartTaken = s.link.restartTaken ∧
    (raiseForSlots f ks s).link.stream = s.link.stream ∧
    (raiseForSlots f ks s).link.report = s.link.report ∧
    (raiseForSlots f ks s).link.tx = s.link.tx := by
  unfold raiseForSlots
  (try dsimp only)
  (try split)
  all_goals (try split)
  all_goals (try split)
  all_goals simp

@[simp] theorem clearFlagsIn_frame (mask : Nat) (s : State) :
    (clearFlagsIn mask s).inputs = s.inputs ∧
    (clearFlagsIn mask s).duty = s.duty ∧
    (clearFlagsIn mask s).starts = s.starts ∧
    (clearFlagsIn mask s).table = s.table ∧
    (clearFlagsIn mask s).hires = s.hires ∧
    (clearFlagsIn mask s).config = s.config ∧
    (clearFlagsIn mask s).clock = s.clock ∧
    (clearFlagsIn mask s).store = s.store ∧
    (clearFlagsIn mask s).freePicks = s.freePicks ∧
    (clearFlagsIn mask s).pending = s.pending ∧
    (clearFlagsIn mask s).link.baudselHigh = s.link.baudselHigh ∧
    (clearFlagsIn mask s).link.rx = s.link.rx ∧
    (clearFlagsIn mask s).link.queue = s.link.queue ∧
    (clearFlagsIn mask s).link.deferred = s.link.deferred ∧
    (clearFlagsIn mask s).link.ready = s.link.ready ∧
    (clearFlagsIn mask s).link.taken = s.link.taken ∧
    (clearFlagsIn mask s).link.restartTaken = s.link.restartTaken ∧
    (clearFlagsIn mask s).link.stream = s.link.stream ∧
    (clearFlagsIn mask s).link.report = s.link.report ∧
    (clearFlagsIn mask s).link.tx = s.link.tx := ⟨rfl, rfl, rfl, rfl, rfl, rfl, rfl, rfl, rfl, rfl, rfl, rfl, rfl, rfl, rfl, rfl, rfl, rfl, rfl, rfl⟩

@[simp] theorem formLamps_frame (s : State) :
    (formLamps s).inputs = s.inputs ∧
    (formLamps s).duty = s.duty ∧
    (formLamps s).starts = s.starts ∧
    (formLamps s).hires = s.hires ∧
    (formLamps s).config = s.config ∧
    (formLamps s).clock = s.clock ∧
    (formLamps s).store = s.store ∧
    (formLamps s).link = s.link ∧
    (formLamps s).freePicks = s.freePicks ∧
    (formLamps s).pending = s.pending ∧
    (formLamps s).table.slots = s.table.slots := by
  unfold formLamps
  (try dsimp only)
  (try split)
  all_goals (try split)
  all_goals (try split)
  all_goals simp

@[simp] theorem formLampsAfresh_frame (s : State) :
    (formLampsAfresh s).inputs = s.inputs ∧
    (formLampsAfresh s).duty = s.duty ∧
    (formLampsAfresh s).starts = s.starts ∧
    (formLampsAfresh s).hires = s.hires ∧
    (formLampsAfresh s).config = s.config ∧
    (formLampsAfresh s).clock = s.clock ∧
    (formLampsAfresh s).store = s.store ∧
    (formLampsAfresh s).link = s.link ∧
    (formLampsAfresh s).freePicks = s.freePicks ∧
    (formLampsAfresh s).pending = s.pending ∧
    (formLampsAfresh s).table.slots = s.table.slots := by
  unfold formLampsAfresh
  (try dsimp only)
  (try split)
  all_goals (try split)
  all_goals (try split)
  all_goals simp

@[simp] theorem startLampCheck_frame (s : State) :
    (startLampCheck s).inputs = s.inputs ∧
    (startLampCheck s).duty = s.duty ∧
    (startLampCheck s).starts = s.starts ∧
    (startLampCheck s).hires = s.hires ∧
    (startLampCheck s).config = s.config ∧
    (startLampCheck s).store = s.store ∧
    (startLampCheck s).link = s.link ∧
    (startLampCheck s).freePicks = s.freePicks ∧
    (startLampCheck s).pending = s.pending ∧
    (startLampCheck s).table.slots = s.table.slots ∧
    (startLampCheck s).clock.time = s.clock.time ∧
    (startLampCheck s).clock.power = s.clock.power ∧
    (startLampCheck s).clock.phase = s.clock.phase ∧
    (startLampCheck s).clock.hold = s.clock.hold ∧
    (startLampCheck s).clock.sleep = s.clock.sleep ∧
    (startLampCheck s).clock.doze = s.clock.doze ∧
    (startLampCheck s).clock.dozeDue = s.clock.dozeDue ∧
    (startLampCheck s).clock.tallyDue = s.clock.tallyDue ∧
    (startLampCheck s).clock.secondStep = s.clock.secondStep ∧
    (startLampCheck s).clock.waking = s.clock.waking ∧
    (startLampCheck s).clock.supplyOn = s.clock.supplyOn ∧
    (startLampCheck s).clock.resetnHigh = s.clock.resetnHigh ∧
    (startLampCheck s).clock.outcome = s.clock.outcome := ⟨rfl, rfl, rfl, rfl, rfl, rfl, rfl, rfl, rfl, rfl, rfl, rfl, rfl, rfl, rfl, rfl, rfl, rfl, rfl, rfl, rfl, rfl, rfl⟩

@[simp] theorem takeLampCheckEnd_frame (s : State) :
    (takeLampCheckEnd s).inputs = s.inputs ∧
    (takeLampCheckEnd s).duty = s.duty ∧
    (takeLampCheckEnd s).starts = s.starts ∧
    (takeLampCheckEnd s).hires = s.hires ∧
    (takeLampCheckEnd s).config = s.config ∧
    (takeLampCheckEnd s).store = s.store ∧
    (takeLampCheckEnd s).link = s.link ∧
    (takeLampCheckEnd s).freePicks = s.freePicks ∧
    (takeLampCheckEnd s).pending = s.pending ∧
    (takeLampCheckEnd s).table.slots = s.table.slots ∧
    (takeLampCheckEnd s).clock.time = s.clock.time ∧
    (takeLampCheckEnd s).clock.power = s.clock.power ∧
    (takeLampCheckEnd s).clock.phase = s.clock.phase ∧
    (takeLampCheckEnd s).clock.hold = s.clock.hold ∧
    (takeLampCheckEnd s).clock.sleep = s.clock.sleep ∧
    (takeLampCheckEnd s).clock.doze = s.clock.doze ∧
    (takeLampCheckEnd s).clock.dozeDue = s.clock.dozeDue ∧
    (takeLampCheckEnd s).clock.tallyDue = s.clock.tallyDue ∧
    (takeLampCheckEnd s).clock.secondStep = s.clock.secondStep ∧
    (takeLampCheckEnd s).clock.waking = s.clock.waking ∧
    (takeLampCheckEnd s).clock.supplyOn = s.clock.supplyOn ∧
    (takeLampCheckEnd s).clock.resetnHigh = s.clock.resetnHigh ∧
    (takeLampCheckEnd s).clock.outcome = s.clock.outcome := by
  unfold takeLampCheckEnd
  (try dsimp only)
  (try split)
  all_goals (try split)
  all_goals (try split)
  all_goals simp

@[simp] theorem takeLampBoundary_frame (m : LampId) (s : State) :
    (takeLampBoundary m s).inputs = s.inputs ∧
    (takeLampBoundary m s).duty = s.duty ∧
    (takeLampBoundary m s).starts = s.starts ∧
    (takeLampBoundary m s).hires = s.hires ∧
    (takeLampBoundary m s).config = s.config ∧
    (takeLampBoundary m s).clock = s.clock ∧
    (takeLampBoundary m s).store = s.store ∧
    (takeLampBoundary m s).link = s.link ∧
    (takeLampBoundary m s).freePicks = s.freePicks ∧
    (takeLampBoundary m s).pending = s.pending ∧
    (takeLampBoundary m s).table.slots = s.table.slots := by
  unfold takeLampBoundary
  (try dsimp only)
  (try split)
  all_goals (try split)
  all_goals (try split)
  all_goals simp

@[simp] theorem raiseMarks_frame (before : Eight SlotMeters) (s : State) :
    (raiseMarks before s).inputs = s.inputs ∧
    (raiseMarks before s).duty = s.duty ∧
    (raiseMarks before s).starts = s.starts ∧
    (raiseMarks before s).table = s.table ∧
    (raiseMarks before s).hires = s.hires ∧
    (raiseMarks before s).config = s.config ∧
    (raiseMarks before s).clock = s.clock ∧
    (raiseMarks before s).store = s.store ∧
    (raiseMarks before s).pending = s.pending ∧
    (raiseMarks before s).link.baudselHigh = s.link.baudselHigh ∧
    (raiseMarks before s).link.rx = s.link.rx ∧
    (raiseMarks before s).link.queue = s.link.queue ∧
    (raiseMarks before s).link.deferred = s.link.deferred ∧
    (raiseMarks before s).link.ready = s.link.ready ∧
    (raiseMarks before s).link.taken = s.link.taken ∧
    (raiseMarks before s).link.restartTaken = s.link.restartTaken ∧
    (raiseMarks before s).link.stream = s.link.stream ∧
    (raiseMarks before s).link.report = s.link.report ∧
    (raiseMarks before s).link.tx = s.link.tx := by
  unfold raiseMarks
  (try dsimp only)
  (try split)
  all_goals (try split)
  all_goals (try split)
  all_goals simp

@[simp] theorem marksChanged_frame (before : Eight SlotMeters) (s : State) :
    (marksChanged before s).inputs = s.inputs ∧
    (marksChanged before s).duty = s.duty ∧
    (marksChanged before s).starts = s.starts ∧
    (marksChanged before s).hires = s.hires ∧
    (marksChanged before s).config = s.config ∧
    (marksChanged before s).clock = s.clock ∧
    (marksChanged before s).store = s.store ∧
    (marksChanged before s).pending = s.pending ∧
    (marksChanged before s).link.baudselHigh = s.link.baudselHigh ∧
    (marksChanged before s).link.rx = s.link.rx ∧
    (marksChanged before s).link.queue = s.link.queue ∧
    (marksChanged before s).link.deferred = s.link.deferred ∧
    (marksChanged before s).link.ready = s.link.ready ∧
    (marksChanged before s).link.taken = s.link.taken ∧
    (marksChanged before s).link.restartTaken = s.link.restartTaken ∧
    (marksChanged before s).link.stream = s.link.stream ∧
    (marksChanged before s).link.report = s.link.report ∧
    (marksChanged before s).link.tx = s.link.tx ∧
    (marksChanged before s).table.slots = s.table.slots := by
  unfold marksChanged
  (try dsimp only)
  (try split)
  all_goals (try split)
  all_goals (try split)
  all_goals simp

@[simp] theorem charge_frame (raws : Eight (Option Nat)) (s : State) :
    (charge raws s).inputs = s.inputs ∧
    (charge raws s).duty = s.duty ∧
    (charge raws s).starts = s.starts ∧
    (charge raws s).config = s.config ∧
    (charge raws s).clock = s.clock ∧
    (charge raws s).store = s.store ∧
    (charge raws s).pending = s.pending ∧
    (charge raws s).link.baudselHigh = s.link.baudselHigh ∧
    (charge raws s).link.rx = s.link.rx ∧
    (charge raws s).link.queue = s.link.queue ∧
    (charge raws s).link.deferred = s.link.deferred ∧
    (charge raws s).link.ready = s.link.ready ∧
    (charge raws s).link.taken = s.link.taken ∧
    (charge raws s).link.restartTaken = s.link.restartTaken ∧
    (charge raws s).link.stream = s.link.stream ∧
    (charge raws s).link.report = s.link.report ∧
    (charge raws s).link.tx = s.link.tx ∧
    (charge raws s).hires.history = s.hires.history ∧
    (charge raws s).hires.released = s.hires.released ∧
    (charge raws s).hires.next = s.hires.next ∧
    (charge raws s).hires.secured = s.hires.secured ∧
    (charge raws s).hires.settled = s.hires.settled := by
  unfold charge creditTarget
  cases s.hires.current with
  | none => simp
  | some h => by_cases hs : h.suspended <;> simp [hs]

@[simp] theorem chargeTally_frame (n : Nat) (s : State) :
    (chargeTally n s).inputs = s.inputs ∧
    (chargeTally n s).duty = s.duty ∧
    (chargeTally n s).starts = s.starts ∧
    (chargeTally n s).config = s.config ∧
    (chargeTally n s).clock = s.clock ∧
    (chargeTally n s).store = s.store ∧
    (chargeTally n s).pending = s.pending ∧
    (chargeTally n s).link.baudselHigh = s.link.baudselHigh ∧
    (chargeTally n s).link.rx = s.link.rx ∧
    (chargeTally n s).link.queue = s.link.queue ∧
    (chargeTally n s).link.deferred = s.link.deferred ∧
    (chargeTally n s).link.ready = s.link.ready ∧
    (chargeTally n s).link.taken = s.link.taken ∧
    (chargeTally n s).link.restartTaken = s.link.restartTaken ∧
    (chargeTally n s).link.stream = s.link.stream ∧
    (chargeTally n s).link.report = s.link.report ∧
    (chargeTally n s).link.tx = s.link.tx ∧
    (chargeTally n s).hires.history = s.hires.history ∧
    (chargeTally n s).hires.released = s.hires.released ∧
    (chargeTally n s).hires.next = s.hires.next ∧
    (chargeTally n s).hires.secured = s.hires.secured ∧
    (chargeTally n s).hires.settled = s.hires.settled := by
  unfold chargeTally
  (try dsimp only)
  (try split)
  all_goals (try split)
  all_goals (try split)
  all_goals simp

@[simp] theorem chargeShift_frame (g : Gear) (s : State) :
    (chargeShift g s).inputs = s.inputs ∧
    (chargeShift g s).duty = s.duty ∧
    (chargeShift g s).starts = s.starts ∧
    (chargeShift g s).config = s.config ∧
    (chargeShift g s).clock = s.clock ∧
    (chargeShift g s).store = s.store ∧
    (chargeShift g s).pending = s.pending ∧
    (chargeShift g s).link.baudselHigh = s.link.baudselHigh ∧
    (chargeShift g s).link.rx = s.link.rx ∧
    (chargeShift g s).link.queue = s.link.queue ∧
    (chargeShift g s).link.deferred = s.link.deferred ∧
    (chargeShift g s).link.ready = s.link.ready ∧
    (chargeShift g s).link.taken = s.link.taken ∧
    (chargeShift g s).link.restartTaken = s.link.restartTaken ∧
    (chargeShift g s).link.stream = s.link.stream ∧
    (chargeShift g s).link.report = s.link.report ∧
    (chargeShift g s).link.tx = s.link.tx ∧
    (chargeShift g s).hires.history = s.hires.history ∧
    (chargeShift g s).hires.released = s.hires.released ∧
    (chargeShift g s).hires.next = s.hires.next ∧
    (chargeShift g s).hires.secured = s.hires.secured ∧
    (chargeShift g s).hires.settled = s.hires.settled := by
  unfold chargeShift
  (try dsimp only)
  (try split)
  all_goals (try split)
  all_goals (try split)
  all_goals simp

@[simp] theorem chargeStart_frame (c : AttemptClass) (t : Nat) (a : Conditions) (s : State) :
    (chargeStart c t a s).inputs = s.inputs ∧
    (chargeStart c t a s).duty = s.duty ∧
    (chargeStart c t a s).starts = s.starts ∧
    (chargeStart c t a s).config = s.config ∧
    (chargeStart c t a s).clock = s.clock ∧
    (chargeStart c t a s).store = s.store ∧
    (chargeStart c t a s).pending = s.pending ∧
    (chargeStart c t a s).link.baudselHigh = s.link.baudselHigh ∧
    (chargeStart c t a s).link.rx = s.link.rx ∧
    (chargeStart c t a s).link.queue = s.link.queue ∧
    (chargeStart c t a s).link.deferred = s.link.deferred ∧
    (chargeStart c t a s).link.ready = s.link.ready ∧
    (chargeStart c t a s).link.taken = s.link.taken ∧
    (chargeStart c t a s).link.restartTaken = s.link.restartTaken ∧
    (chargeStart c t a s).link.stream = s.link.stream ∧
    (chargeStart c t a s).link.report = s.link.report ∧
    (chargeStart c t a s).link.tx = s.link.tx ∧
    (chargeStart c t a s).hires.history = s.hires.history ∧
    (chargeStart c t a s).hires.released = s.hires.released ∧
    (chargeStart c t a s).hires.next = s.hires.next ∧
    (chargeStart c t a s).hires.secured = s.hires.secured ∧
    (chargeStart c t a s).hires.settled = s.hires.settled := by
  unfold chargeStart
  (try dsimp only)
  (try split)
  all_goals (try split)
  all_goals (try split)
  all_goals simp

@[simp] theorem openAttempt_frame (k : AttemptKind) (s : State) :
    (openAttempt k s).inputs = s.inputs ∧
    (openAttempt k s).duty = s.duty ∧
    (openAttempt k s).table = s.table ∧
    (openAttempt k s).hires = s.hires ∧
    (openAttempt k s).config = s.config ∧
    (openAttempt k s).clock = s.clock ∧
    (openAttempt k s).store = s.store ∧
    (openAttempt k s).link = s.link ∧
    (openAttempt k s).freePicks = s.freePicks ∧
    (openAttempt k s).pending = s.pending ∧
    (openAttempt k s).starts.life = s.starts.life ∧
    (openAttempt k s).starts.log = s.starts.log ∧
    (openAttempt k s).starts.next = s.starts.next := ⟨rfl, rfl, rfl, rfl, rfl, rfl, rfl, rfl, rfl, rfl, rfl, rfl, rfl⟩

@[simp] theorem stopCrank_frame (s : State) :
    (stopCrank s).inputs = s.inputs ∧
    (stopCrank s).duty = s.duty ∧
    (stopCrank s).table = s.table ∧
    (stopCrank s).hires = s.hires ∧
    (stopCrank s).config = s.config ∧
    (stopCrank s).clock = s.clock ∧
    (stopCrank s).store = s.store ∧
    (stopCrank s).link = s.link ∧
    (stopCrank s).freePicks = s.freePicks ∧
    (stopCrank s).pending = s.pending ∧
    (stopCrank s).starts.life = s.starts.life ∧
    (stopCrank s).starts.log = s.starts.log ∧
    (stopCrank s).starts.next = s.starts.next := ⟨rfl, rfl, rfl, rfl, rfl, rfl, rfl, rfl, rfl, rfl, rfl, rfl, rfl⟩

@[simp] theorem resumeCrank_frame (s : State) :
    (resumeCrank s).inputs = s.inputs ∧
    (resumeCrank s).duty = s.duty ∧
    (resumeCrank s).table = s.table ∧
    (resumeCrank s).hires = s.hires ∧
    (resumeCrank s).config = s.config ∧
    (resumeCrank s).clock = s.clock ∧
    (resumeCrank s).store = s.store ∧
    (resumeCrank s).link = s.link ∧
    (resumeCrank s).freePicks = s.freePicks ∧
    (resumeCrank s).pending = s.pending ∧
    (resumeCrank s).starts.life = s.starts.life ∧
    (resumeCrank s).starts.log = s.starts.log ∧
    (resumeCrank s).starts.next = s.starts.next := ⟨rfl, rfl, rfl, rfl, rfl, rfl, rfl, rfl, rfl, rfl, rfl, rfl, rfl⟩

@[simp] theorem State.count_frame (f : HireCounters → HireCounters) (s : State) :
    (s.count f).inputs = s.inputs ∧
    (s.count f).duty = s.duty ∧
    (s.count f).starts = s.starts ∧
    (s.count f).table = s.table ∧
    (s.count f).config = s.config ∧
    (s.count f).clock = s.clock ∧
    (s.count f).store = s.store ∧
    (s.count f).link = s.link ∧
    (s.count f).freePicks = s.freePicks ∧
    (s.count f).pending = s.pending ∧
    (s.count f).hires.idle = s.hires.idle ∧
    (s.count f).hires.settled = s.hires.settled ∧
    (s.count f).hires.history = s.hires.history ∧
    (s.count f).hires.released = s.hires.released ∧
    (s.count f).hires.next = s.hires.next ∧
    (s.count f).hires.secured = s.hires.secured := ⟨rfl, rfl, rfl, rfl, rfl, rfl, rfl, rfl, rfl, rfl, rfl, rfl, rfl, rfl, rfl, rfl⟩

@[simp] theorem countStart_frame (c : AttemptClass) (s : State) :
    (countStart c s).inputs = s.inputs ∧
    (countStart c s).duty = s.duty ∧
    (countStart c s).table = s.table ∧
    (countStart c s).config = s.config ∧
    (countStart c s).clock = s.clock ∧
    (countStart c s).store = s.store ∧
    (countStart c s).link = s.link ∧
    (countStart c s).freePicks = s.freePicks ∧
    (countStart c s).pending = s.pending ∧
    (countStart c s).hires.idle = s.hires.idle ∧
    (countStart c s).hires.settled = s.hires.settled ∧
    (countStart c s).hires.history = s.hires.history ∧
    (countStart c s).hires.released = s.hires.released ∧
    (countStart c s).hires.next = s.hires.next ∧
    (countStart c s).hires.secured = s.hires.secured ∧
    (countStart c s).starts.attempt = s.starts.attempt ∧
    (countStart c s).starts.log = s.starts.log ∧
    (countStart c s).starts.next = s.starts.next := ⟨rfl, rfl, rfl, rfl, rfl, rfl, rfl, rfl, rfl, rfl, rfl, rfl, rfl, rfl, rfl, rfl, rfl, rfl⟩

@[simp] theorem logStart_frame (a : Attempt) (c : AttemptClass) (s : State) :
    (logStart a c s).inputs = s.inputs ∧
    (logStart a c s).duty = s.duty ∧
    (logStart a c s).table = s.table ∧
    (logStart a c s).hires = s.hires ∧
    (logStart a c s).config = s.config ∧
    (logStart a c s).clock = s.clock ∧
    (logStart a c s).store = s.store ∧
    (logStart a c s).freePicks = s.freePicks ∧
    (logStart a c s).pending = s.pending ∧
    (logStart a c s).starts.attempt = s.starts.attempt ∧
    (logStart a c s).starts.life = s.starts.life ∧
    (logStart a c s).link.baudselHigh = s.link.baudselHigh ∧
    (logStart a c s).link.rx = s.link.rx ∧
    (logStart a c s).link.queue = s.link.queue ∧
    (logStart a c s).link.deferred = s.link.deferred ∧
    (logStart a c s).link.ready = s.link.ready ∧
    (logStart a c s).link.taken = s.link.taken ∧
    (logStart a c s).link.restartTaken = s.link.restartTaken ∧
    (logStart a c s).link.stream = s.link.stream ∧
    (logStart a c s).link.report = s.link.report ∧
    (logStart a c s).link.tx = s.link.tx := by
  unfold logStart
  (try dsimp only)
  (try split)
  all_goals (try split)
  all_goals (try split)
  all_goals simp

@[simp] theorem closeAttempt_frame (c : AttemptClass) (s : State) :
    (closeAttempt c s).inputs = s.inputs ∧
    (closeAttempt c s).duty = s.duty ∧
    (closeAttempt c s).config = s.config ∧
    (closeAttempt c s).clock = s.clock ∧
    (closeAttempt c s).store = s.store ∧
    (closeAttempt c s).pending = s.pending ∧
    (closeAttempt c s).link.baudselHigh = s.link.baudselHigh ∧
    (closeAttempt c s).link.rx = s.link.rx ∧
    (closeAttempt c s).link.queue = s.link.queue ∧
    (closeAttempt c s).link.deferred = s.link.deferred ∧
    (closeAttempt c s).link.ready = s.link.ready ∧
    (closeAttempt c s).link.taken = s.link.taken ∧
    (closeAttempt c s).link.restartTaken = s.link.restartTaken ∧
    (closeAttempt c s).link.stream = s.link.stream ∧
    (closeAttempt c s).link.report = s.link.report ∧
    (closeAttempt c s).link.tx = s.link.tx ∧
    (closeAttempt c s).hires.settled = s.hires.settled ∧
    (closeAttempt c s).hires.history = s.hires.history ∧
    (closeAttempt c s).hires.released = s.hires.released ∧
    (closeAttempt c s).hires.next = s.hires.next ∧
    (closeAttempt c s).hires.secured = s.hires.secured := by
  unfold closeAttempt
  (try dsimp only)
  (try split)
  all_goals (try split)
  all_goals (try split)
  all_goals simp

@[simp] theorem onMeters_frame (f : PlainMeters → PlainMeters) (s : State) :
    (onMeters f s).inputs = s.inputs ∧
    (onMeters f s).starts = s.starts ∧
    (onMeters f s).table = s.table ∧
    (onMeters f s).hires = s.hires ∧
    (onMeters f s).config = s.config ∧
    (onMeters f s).clock = s.clock ∧
    (onMeters f s).store = s.store ∧
    (onMeters f s).link = s.link ∧
    (onMeters f s).freePicks = s.freePicks ∧
    (onMeters f s).pending = s.pending ∧
    (onMeters f s).duty.engine = s.duty.engine ∧
    (onMeters f s).duty.clutch = s.duty.clutch ∧
    (onMeters f s).duty.confirmTimer = s.duty.confirmTimer ∧
    (onMeters f s).duty.lockTimer = s.duty.lockTimer ∧
    (onMeters f s).duty.gear = s.duty.gear ∧
    (onMeters f s).duty.heldGear = s.duty.heldGear ∧
    (onMeters f s).duty.runCount = s.duty.runCount ∧
    (onMeters f s).duty.coolant = s.duty.coolant ∧
    (onMeters f s).duty.fresh = s.duty.fresh ∧
    (onMeters f s).duty.freshTimer = s.duty.freshTimer ∧
    (onMeters f s).duty.load = s.duty.load := ⟨rfl, rfl, rfl, rfl, rfl, rfl, rfl, rfl, rfl, rfl, rfl, rfl, rfl, rfl, rfl, rfl, rfl, rfl, rfl, rfl, rfl⟩

@[simp] theorem clutchToSlipping_frame (s : State) :
    (clutchToSlipping s).inputs = s.inputs ∧
    (clutchToSlipping s).starts = s.starts ∧
    (clutchToSlipping s).table = s.table ∧
    (clutchToSlipping s).hires = s.hires ∧
    (clutchToSlipping s).config = s.config ∧
    (clutchToSlipping s).clock = s.clock ∧
    (clutchToSlipping s).store = s.store ∧
    (clutchToSlipping s).link = s.link ∧
    (clutchToSlipping s).freePicks = s.freePicks ∧
    (clutchToSlipping s).pending = s.pending ∧
    (clutchToSlipping s).duty.gear = s.duty.gear ∧
    (clutchToSlipping s).duty.heldGear = s.duty.heldGear ∧
    (clutchToSlipping s).duty.runCount = s.duty.runCount ∧
    (clutchToSlipping s).duty.coolant = s.duty.coolant ∧
    (clutchToSlipping s).duty.fresh = s.duty.fresh ∧
    (clutchToSlipping s).duty.freshTimer = s.duty.freshTimer ∧
    (clutchToSlipping s).duty.load = s.duty.load ∧
    (clutchToSlipping s).duty.engine = s.duty.engine ∧
    (clutchToSlipping s).duty.confirmTimer = s.duty.confirmTimer ∧
    (clutchToSlipping s).duty.meters = s.duty.meters := ⟨rfl, rfl, rfl, rfl, rfl, rfl, rfl, rfl, rfl, rfl, rfl, rfl, rfl, rfl, rfl, rfl, rfl, rfl, rfl, rfl⟩

@[simp] theorem clutchLeavesIdle_frame (s : State) :
    (clutchLeavesIdle s).inputs = s.inputs ∧
    (clutchLeavesIdle s).starts = s.starts ∧
    (clutchLeavesIdle s).table = s.table ∧
    (clutchLeavesIdle s).hires = s.hires ∧
    (clutchLeavesIdle s).config = s.config ∧
    (clutchLeavesIdle s).clock = s.clock ∧
    (clutchLeavesIdle s).store = s.store ∧
    (clutchLeavesIdle s).link = s.link ∧
    (clutchLeavesIdle s).freePicks = s.freePicks ∧
    (clutchLeavesIdle s).pending = s.pending ∧
    (clutchLeavesIdle s).duty.gear = s.duty.gear ∧
    (clutchLeavesIdle s).duty.heldGear = s.duty.heldGear ∧
    (clutchLeavesIdle s).duty.runCount = s.duty.runCount ∧
    (clutchLeavesIdle s).duty.coolant = s.duty.coolant ∧
    (clutchLeavesIdle s).duty.fresh = s.duty.fresh ∧
    (clutchLeavesIdle s).duty.freshTimer = s.duty.freshTimer ∧
    (clutchLeavesIdle s).duty.load = s.duty.load ∧
    (clutchLeavesIdle s).duty.engine = s.duty.engine ∧
    (clutchLeavesIdle s).duty.confirmTimer = s.duty.confirmTimer ∧
    (clutchLeavesIdle s).duty.meters = s.duty.meters := by
  unfold clutchLeavesIdle
  (try dsimp only)
  (try split)
  all_goals (try split)
  all_goals (try split)
  all_goals simp

@[simp] theorem clutchToIdle_frame (s : State) :
    (clutchToIdle s).inputs = s.inputs ∧
    (clutchToIdle s).starts = s.starts ∧
    (clutchToIdle s).table = s.table ∧
    (clutchToIdle s).hires = s.hires ∧
    (clutchToIdle s).config = s.config ∧
    (clutchToIdle s).clock = s.clock ∧
    (clutchToIdle s).store = s.store ∧
    (clutchToIdle s).link = s.link ∧
    (clutchToIdle s).freePicks = s.freePicks ∧
    (clutchToIdle s).pending = s.pending ∧
    (clutchToIdle s).duty.gear = s.duty.gear ∧
    (clutchToIdle s).duty.heldGear = s.duty.heldGear ∧
    (clutchToIdle s).duty.runCount = s.duty.runCount ∧
    (clutchToIdle s).duty.coolant = s.duty.coolant ∧
    (clutchToIdle s).duty.fresh = s.duty.fresh ∧
    (clutchToIdle s).duty.freshTimer = s.duty.freshTimer ∧
    (clutchToIdle s).duty.load = s.duty.load ∧
    (clutchToIdle s).duty.engine = s.duty.engine ∧
    (clutchToIdle s).duty.confirmTimer = s.duty.confirmTimer ∧
    (clutchToIdle s).duty.meters = s.duty.meters := ⟨rfl, rfl, rfl, rfl, rfl, rfl, rfl, rfl, rfl, rfl, rfl, rfl, rfl, rfl, rfl, rfl, rfl, rfl, rfl, rfl⟩

@[simp] theorem clutchPedal_frame (b : Bool) (s : State) :
    (clutchPedal b s).inputs = s.inputs ∧
    (clutchPedal b s).starts = s.starts ∧
    (clutchPedal b s).table = s.table ∧
    (clutchPedal b s).config = s.config ∧
    (clutchPedal b s).clock = s.clock ∧
    (clutchPedal b s).store = s.store ∧
    (clutchPedal b s).link = s.link ∧
    (clutchPedal b s).freePicks = s.freePicks ∧
    (clutchPedal b s).pending = s.pending ∧
    (clutchPedal b s).duty.gear = s.duty.gear ∧
    (clutchPedal b s).duty.heldGear = s.duty.heldGear ∧
    (clutchPedal b s).duty.runCount = s.duty.runCount ∧
    (clutchPedal b s).duty.coolant = s.duty.coolant ∧
    (clutchPedal b s).duty.fresh = s.duty.fresh ∧
    (clutchPedal b s).duty.freshTimer = s.duty.freshTimer ∧
    (clutchPedal b s).duty.load = s.duty.load ∧
    (clutchPedal b s).duty.engine = s.duty.engine ∧
    (clutchPedal b s).duty.confirmTimer = s.duty.confirmTimer ∧
    (clutchPedal b s).hires.idle = s.hires.idle ∧
    (clutchPedal b s).hires.settled = s.hires.settled ∧
    (clutchPedal b s).hires.history = s.hires.history ∧
    (clutchPedal b s).hires.released = s.hires.released ∧
    (clutchPedal b s).hires.next = s.hires.next ∧
    (clutchPedal b s).hires.secured = s.hires.secured := by
  unfold clutchPedal
  (try dsimp only)
  (try split)
  all_goals (try split)
  all_goals (try split)
  all_goals simp

@[simp] theorem clutchSpeed_frame (s : State) :
    (clutchSpeed s).inputs = s.inputs ∧
    (clutchSpeed s).starts = s.starts ∧
    (clutchSpeed s).table = s.table ∧
    (clutchSpeed s).hires = s.hires ∧
    (clutchSpeed s).config = s.config ∧
    (clutchSpeed s).clock = s.clock ∧
    (clutchSpeed s).store = s.store ∧
    (clutchSpeed s).link = s.link ∧
    (clutchSpeed s).freePicks = s.freePicks ∧
    (clutchSpeed s).pending = s.pending ∧
    (clutchSpeed s).duty.gear = s.duty.gear ∧
    (clutchSpeed s).duty.heldGear = s.duty.heldGear ∧
    (clutchSpeed s).duty.runCount = s.duty.runCount ∧
    (clutchSpeed s).duty.coolant = s.duty.coolant ∧
    (clutchSpeed s).duty.fresh = s.duty.fresh ∧
    (clutchSpeed s).duty.freshTimer = s.duty.freshTimer ∧
    (clutchSpeed s).duty.load = s.duty.load ∧
    (clutchSpeed s).duty.engine = s.duty.engine ∧
    (clutchSpeed s).duty.confirmTimer = s.duty.confirmTimer := by
  unfold clutchSpeed
  (try dsimp only)
  (try split)
  all_goals (try split)
  all_goals (try split)
  all_goals simp

@[simp] theorem takeLockExpiry_frame (s : State) :
    (takeLockExpiry s).inputs = s.inputs ∧
    (takeLockExpiry s).starts = s.starts ∧
    (takeLockExpiry s).table = s.table ∧
    (takeLockExpiry s).hires = s.hires ∧
    (takeLockExpiry s).config = s.config ∧
    (takeLockExpiry s).clock = s.clock ∧
    (takeLockExpiry s).store = s.store ∧
    (takeLockExpiry s).link = s.link ∧
    (takeLockExpiry s).freePicks = s.freePicks ∧
    (takeLockExpiry s).pending = s.pending ∧
    (takeLockExpiry s).duty.gear = s.duty.gear ∧
    (takeLockExpiry s).duty.heldGear = s.duty.heldGear ∧
    (takeLockExpiry s).duty.runCount = s.duty.runCount ∧
    (takeLockExpiry s).duty.coolant = s.duty.coolant ∧
    (takeLockExpiry s).duty.fresh = s.duty.fresh ∧
    (takeLockExpiry s).duty.freshTimer = s.duty.freshTimer ∧
    (takeLockExpiry s).duty.load = s.duty.load ∧
    (takeLockExpiry s).duty.engine = s.duty.engine ∧
    (takeLockExpiry s).duty.confirmTimer = s.duty.confirmTimer ∧
    (takeLockExpiry s).duty.meters = s.duty.meters := by
  unfold takeLockExpiry
  (try dsimp only)
  (try split)
  all_goals (try split)
  all_goals (try split)
  all_goals simp

@[simp] theorem moveEngine_frame (e : Engine) (s : State) :
    (moveEngine e s).inputs = s.inputs ∧
    (moveEngine e s).starts = s.starts ∧
    (moveEngine e s).table = s.table ∧
    (moveEngine e s).hires = s.hires ∧
    (moveEngine e s).config = s.config ∧
    (moveEngine e s).clock = s.clock ∧
    (moveEngine e s).store = s.store ∧
    (moveEngine e s).link = s.link ∧
    (moveEngine e s).freePicks = s.freePicks ∧
    (moveEngine e s).pending = s.pending ∧
    (moveEngine e s).duty.gear = s.duty.gear ∧
    (moveEngine e s).duty.heldGear = s.duty.heldGear ∧
    (moveEngine e s).duty.runCount = s.duty.runCount ∧
    (moveEngine e s).duty.coolant = s.duty.coolant ∧
    (moveEngine e s).duty.fresh = s.duty.fresh ∧
    (moveEngine e s).duty.freshTimer = s.duty.freshTimer ∧
    (moveEngine e s).duty.load = s.duty.load ∧
    (moveEngine e s).duty.meters = s.duty.meters := by
  unfold moveEngine
  (try dsimp only)
  (try split)
  all_goals (try split)
  all_goals (try split)
  all_goals simp

@[simp] theorem startCranking_frame (s : State) :
    (startCranking s).inputs = s.inputs ∧
    (startCranking s).table = s.table ∧
    (startCranking s).hires = s.hires ∧
    (startCranking s).config = s.config ∧
    (startCranking s).clock = s.clock ∧
    (startCranking s).store = s.store ∧
    (startCranking s).link = s.link ∧
    (startCranking s).freePicks = s.freePicks ∧
    (startCranking s).pending = s.pending ∧
    (startCranking s).starts.life = s.starts.life ∧
    (startCranking s).starts.log = s.starts.log ∧
    (startCranking s).starts.next = s.starts.next ∧
    (startCranking s).duty.gear = s.duty.gear ∧
    (startCranking s).duty.heldGear = s.duty.heldGear ∧
    (startCranking s).duty.runCount = s.duty.runCount ∧
    (startCranking s).duty.coolant = s.duty.coolant ∧
    (startCranking s).duty.fresh = s.duty.fresh ∧
    (startCranking s).duty.freshTimer = s.duty.freshTimer ∧
    (startCranking s).duty.load = s.duty.load ∧
    (startCranking s).duty.meters = s.duty.meters := by
  unfold startCranking
  (try dsimp only)
  (try split)
  all_goals (try split)
  all_goals (try split)
  all_goals simp

@[simp] theorem startPushed_frame (s : State) :
    (startPushed s).inputs = s.inputs ∧
    (startPushed s).table = s.table ∧
    (startPushed s).hires = s.hires ∧
    (startPushed s).config = s.config ∧
    (startPushed s).clock = s.clock ∧
    (startPushed s).store = s.store ∧
    (startPushed s).link = s.link ∧
    (startPushed s).freePicks = s.freePicks ∧
    (startPushed s).pending = s.pending ∧
    (startPushed s).starts.life = s.starts.life ∧
    (startPushed s).starts.log = s.starts.log ∧
    (startPushed s).starts.next = s.starts.next ∧
    (startPushed s).duty.gear = s.duty.gear ∧
    (startPushed s).duty.heldGear = s.duty.heldGear ∧
    (startPushed s).duty.runCount = s.duty.runCount ∧
    (startPushed s).duty.coolant = s.duty.coolant ∧
    (startPushed s).duty.fresh = s.duty.fresh ∧
    (startPushed s).duty.freshTimer = s.duty.freshTimer ∧
    (startPushed s).duty.load = s.duty.load ∧
    (startPushed s).duty.meters = s.duty.meters := by
  unfold startPushed
  (try dsimp only)
  (try split)
  all_goals (try split)
  all_goals (try split)
  all_goals simp

@[simp] theorem enterReady_frame (s : State) :
    (enterReady s).inputs = s.inputs ∧
    (enterReady s).table = s.table ∧
    (enterReady s).hires = s.hires ∧
    (enterReady s).config = s.config ∧
    (enterReady s).clock = s.clock ∧
    (enterReady s).store = s.store ∧
    (enterReady s).link = s.link ∧
    (enterReady s).freePicks = s.freePicks ∧
    (enterReady s).pending = s.pending ∧
    (enterReady s).starts.life = s.starts.life ∧
    (enterReady s).starts.log = s.starts.log ∧
    (enterReady s).starts.next = s.starts.next ∧
    (enterReady s).duty.gear = s.duty.gear ∧
    (enterReady s).duty.heldGear = s.duty.heldGear ∧
    (enterReady s).duty.runCount = s.duty.runCount ∧
    (enterReady s).duty.coolant = s.duty.coolant ∧
    (enterReady s).duty.fresh = s.duty.fresh ∧
    (enterReady s).duty.freshTimer = s.duty.freshTimer ∧
    (enterReady s).duty.load = s.duty.load ∧
    (enterReady s).duty.meters = s.duty.meters := by
  unfold enterReady
  (try dsimp only)
  (try split)
  all_goals (try split)
  all_goals (try split)
  all_goals simp

@[simp] theorem ignitionCut_frame (s : State) :
    (ignitionCut s).inputs = s.inputs ∧
    (ignitionCut s).starts = s.starts ∧
    (ignitionCut s).table = s.table ∧
    (ignitionCut s).hires = s.hires ∧
    (ignitionCut s).config = s.config ∧
    (ignitionCut s).clock = s.clock ∧
    (ignitionCut s).store = s.store ∧
    (ignitionCut s).link = s.link ∧
    (ignitionCut s).freePicks = s.freePicks ∧
    (ignitionCut s).pending = s.pending ∧
    (ignitionCut s).duty.gear = s.duty.gear ∧
    (ignitionCut s).duty.heldGear = s.duty.heldGear ∧
    (ignitionCut s).duty.runCount = s.duty.runCount ∧
    (ignitionCut s).duty.coolant = s.duty.coolant ∧
    (ignitionCut s).duty.fresh = s.duty.fresh ∧
    (ignitionCut s).duty.freshTimer = s.duty.freshTimer ∧
    (ignitionCut s).duty.load = s.duty.load ∧
    (ignitionCut s).duty.meters = s.duty.meters := by
  unfold ignitionCut
  (try dsimp only)
  (try split)
  all_goals (try split)
  all_goals (try split)
  all_goals simp

@[simp] theorem engineIgnition_frame (b : Bool) (s : State) :
    (engineIgnition b s).inputs = s.inputs ∧
    (engineIgnition b s).config = s.config ∧
    (engineIgnition b s).clock = s.clock ∧
    (engineIgnition b s).store = s.store ∧
    (engineIgnition b s).pending = s.pending ∧
    (engineIgnition b s).link.baudselHigh = s.link.baudselHigh ∧
    (engineIgnition b s).link.rx = s.link.rx ∧
    (engineIgnition b s).link.queue = s.link.queue ∧
    (engineIgnition b s).link.deferred = s.link.deferred ∧
    (engineIgnition b s).link.ready = s.link.ready ∧
    (engineIgnition b s).link.taken = s.link.taken ∧
    (engineIgnition b s).link.restartTaken = s.link.restartTaken ∧
    (engineIgnition b s).link.stream = s.link.stream ∧
    (engineIgnition b s).link.report = s.link.report ∧
    (engineIgnition b s).link.tx = s.link.tx ∧
    (engineIgnition b s).hires.settled = s.hires.settled ∧
    (engineIgnition b s).hires.history = s.hires.history ∧
    (engineIgnition b s).hires.released = s.hires.released ∧
    (engineIgnition b s).hires.next = s.hires.next ∧
    (engineIgnition b s).hires.secured = s.hires.secured ∧
    (engineIgnition b s).duty.gear = s.duty.gear ∧
    (engineIgnition b s).duty.heldGear = s.duty.heldGear ∧
    (engineIgnition b s).duty.runCount = s.duty.runCount ∧
    (engineIgnition b s).duty.coolant = s.duty.coolant ∧
    (engineIgnition b s).duty.fresh = s.duty.fresh ∧
    (engineIgnition b s).duty.freshTimer = s.duty.freshTimer ∧
    (engineIgnition b s).duty.load = s.duty.load := by
  unfold engineIgnition
  (try dsimp only)
  (try split)
  all_goals (try split)
  all_goals (try split)
  all_goals simp

@[simp] theorem engineCrank_frame (b : Bool) (s : State) :
    (engineCrank b s).inputs = s.inputs ∧
    (engineCrank b s).config = s.config ∧
    (engineCrank b s).clock = s.clock ∧
    (engineCrank b s).store = s.store ∧
    (engineCrank b s).pending = s.pending ∧
    (engineCrank b s).link.baudselHigh = s.link.baudselHigh ∧
    (engineCrank b s).link.rx = s.link.rx ∧
    (engineCrank b s).link.queue = s.link.queue ∧
    (engineCrank b s).link.deferred = s.link.deferred ∧
    (engineCrank b s).link.ready = s.link.ready ∧
    (engineCrank b s).link.taken = s.link.taken ∧
    (engineCrank b s).link.restartTaken = s.link.restartTaken ∧
    (engineCrank b s).link.stream = s.link.stream ∧
    (engineCrank b s).link.report = s.link.report ∧
    (engineCrank b s).link.tx = s.link.tx ∧
    (engineCrank b s).hires.settled = s.hires.settled ∧
    (engineCrank b s).hires.history = s.hires.history ∧
    (engineCrank b s).hires.released = s.hires.released ∧
    (engineCrank b s).hires.next = s.hires.next ∧
    (engineCrank b s).hires.secured = s.hires.secured ∧
    (engineCrank b s).duty.gear = s.duty.gear ∧
    (engineCrank b s).duty.heldGear = s.duty.heldGear ∧
    (engineCrank b s).duty.runCount = s.duty.runCount ∧
    (engineCrank b s).duty.coolant = s.duty.coolant ∧
    (engineCrank b s).duty.fresh = s.duty.fresh ∧
    (engineCrank b s).duty.freshTimer = s.duty.freshTimer ∧
    (engineCrank b s).duty.load = s.duty.load := by
  unfold engineCrank
  (try dsimp only)
  (try split)
  all_goals (try split)
  all_goals (try split)
  all_goals simp

@[simp] theorem engineStall_frame (s : State) :
    (engineStall s).inputs = s.inputs ∧
    (engineStall s).config = s.config ∧
    (engineStall s).clock = s.clock ∧
    (engineStall s).store = s.store ∧
    (engineStall s).pending = s.pending ∧
    (engineStall s).link.baudselHigh = s.link.baudselHigh ∧
    (engineStall s).link.rx = s.link.rx ∧
    (engineStall s).link.queue = s.link.queue ∧
    (engineStall s).link.deferred = s.link.deferred ∧
    (engineStall s).link.ready = s.link.ready ∧
    (engineStall s).link.taken = s.link.taken ∧
    (engineStall s).link.restartTaken = s.link.restartTaken ∧
    (engineStall s).link.stream = s.link.stream ∧
    (engineStall s).link.report = s.link.report ∧
    (engineStall s).link.tx = s.link.tx ∧
    (engineStall s).hires.settled = s.hires.settled ∧
    (engineStall s).hires.history = s.hires.history ∧
    (engineStall s).hires.released = s.hires.released ∧
    (engineStall s).hires.next = s.hires.next ∧
    (engineStall s).hires.secured = s.hires.secured ∧
    (engineStall s).duty.gear = s.duty.gear ∧
    (engineStall s).duty.heldGear = s.duty.heldGear ∧
    (engineStall s).duty.runCount = s.duty.runCount ∧
    (engineStall s).duty.coolant = s.duty.coolant ∧
    (engineStall s).duty.fresh = s.duty.fresh ∧
    (engineStall s).duty.freshTimer = s.duty.freshTimer ∧
    (engineStall s).duty.load = s.duty.load := by
  unfold engineStall
  (try dsimp only)
  (try split)
  all_goals (try split)
  all_goals (try split)
  all_goals simp

@[simp] theorem engineSpeed_frame (s : State) :
    (engineSpeed s).inputs = s.inputs ∧
    (engineSpeed s).config = s.config ∧
    (engineSpeed s).clock = s.clock ∧
    (engineSpeed s).store = s.store ∧
    (engineSpeed s).pending = s.pending ∧
    (engineSpeed s).link.baudselHigh = s.link.baudselHigh ∧
    (engineSpeed s).link.rx = s.link.rx ∧
    (engineSpeed s).link.queue = s.link.queue ∧
    (engineSpeed s).link.deferred = s.link.deferred ∧
    (engineSpeed s).link.ready = s.link.ready ∧
    (engineSpeed s).link.taken = s.link.taken ∧
    (engineSpeed s).link.restartTaken = s.link.restartTaken ∧
    (engineSpeed s).link.stream = s.link.stream ∧
    (engineSpeed s).link.report = s.link.report ∧
    (engineSpeed s).link.tx = s.link.tx ∧
    (engineSpeed s).hires.settled = s.hires.settled ∧
    (engineSpeed s).hires.history = s.hires.history ∧
    (engineSpeed s).hires.released = s.hires.released ∧
    (engineSpeed s).hires.next = s.hires.next ∧
    (engineSpeed s).hires.secured = s.hires.secured ∧
    (engineSpeed s).duty.gear = s.duty.gear ∧
    (engineSpeed s).duty.heldGear = s.duty.heldGear ∧
    (engineSpeed s).duty.runCount = s.duty.runCount ∧
    (engineSpeed s).duty.coolant = s.duty.coolant ∧
    (engineSpeed s).duty.fresh = s.duty.fresh ∧
    (engineSpeed s).duty.freshTimer = s.duty.freshTimer ∧
    (engineSpeed s).duty.load = s.duty.load := by
  unfold engineSpeed
  (try dsimp only)
  (try split)
  all_goals (try split)
  all_goals (try split)
  all_goals simp

@[simp] theorem speedChanged_frame (sh : Shaft) (b : Bool) (s : State) :
    (speedChanged sh b s).inputs = s.inputs ∧
    (speedChanged sh b s).config = s.config ∧
    (speedChanged sh b s).clock = s.clock ∧
    (speedChanged sh b s).store = s.store ∧
    (speedChanged sh b s).pending = s.pending ∧
    (speedChanged sh b s).link.baudselHigh = s.link.baudselHigh ∧
    (speedChanged sh b s).link.rx = s.link.rx ∧
    (speedChanged sh b s).link.queue = s.link.queue ∧
    (speedChanged sh b s).link.deferred = s.link.deferred ∧
    (speedChanged sh b s).link.ready = s.link.ready ∧
    (speedChanged sh b s).link.taken = s.link.taken ∧
    (speedChanged sh b s).link.restartTaken = s.link.restartTaken ∧
    (speedChanged sh b s).link.stream = s.link.stream ∧
    (speedChanged sh b s).link.report = s.link.report ∧
    (speedChanged sh b s).link.tx = s.link.tx ∧
    (speedChanged sh b s).hires.settled = s.hires.settled ∧
    (speedChanged sh b s).hires.history = s.hires.history ∧
    (speedChanged sh b s).hires.released = s.hires.released ∧
    (speedChanged sh b s).hires.next = s.hires.next ∧
    (speedChanged sh b s).hires.secured = s.hires.secured ∧
    (speedChanged sh b s).duty.gear = s.duty.gear ∧
    (speedChanged sh b s).duty.heldGear = s.duty.heldGear ∧
    (speedChanged sh b s).duty.runCount = s.duty.runCount ∧
    (speedChanged sh b s).duty.coolant = s.duty.coolant ∧
    (speedChanged sh b s).duty.fresh = s.duty.fresh ∧
    (speedChanged sh b s).duty.freshTimer = s.duty.freshTimer ∧
    (speedChanged sh b s).duty.load = s.duty.load := by
  unfold speedChanged
  (try dsimp only)
  (try split)
  all_goals (try split)
  all_goals (try split)
  all_goals simp

@[simp] theorem takeConfirmExpiry_frame (s : State) :
    (takeConfirmExpiry s).inputs = s.inputs ∧
    (takeConfirmExpiry s).config = s.config ∧
    (takeConfirmExpiry s).clock = s.clock ∧
    (takeConfirmExpiry s).store = s.store ∧
    (takeConfirmExpiry s).pending = s.pending ∧
    (takeConfirmExpiry s).link.baudselHigh = s.link.baudselHigh ∧
    (takeConfirmExpiry s).link.rx = s.link.rx ∧
    (takeConfirmExpiry s).link.queue = s.link.queue ∧
    (takeConfirmExpiry s).link.deferred = s.link.deferred ∧
    (takeConfirmExpiry s).link.ready = s.link.ready ∧
    (takeConfirmExpiry s).link.taken = s.link.taken ∧
    (takeConfirmExpiry s).link.restartTaken = s.link.restartTaken ∧
    (takeConfirmExpiry s).link.stream = s.link.stream ∧
    (takeConfirmExpiry s).link.report = s.link.report ∧
    (takeConfirmExpiry s).link.tx = s.link.tx ∧
    (takeConfirmExpiry s).hires.settled = s.hires.settled ∧
    (takeConfirmExpiry s).hires.history = s.hires.history ∧
    (takeConfirmExpiry s).hires.released = s.hires.released ∧
    (takeConfirmExpiry s).hires.next = s.hires.next ∧
    (takeConfirmExpiry s).hires.secured = s.hires.secured ∧
    (takeConfirmExpiry s).duty.gear = s.duty.gear ∧
    (takeConfirmExpiry s).duty.heldGear = s.duty.heldGear ∧
    (takeConfirmExpiry s).duty.runCount = s.duty.runCount ∧
    (takeConfirmExpiry s).duty.coolant = s.duty.coolant ∧
    (takeConfirmExpiry s).duty.fresh = s.duty.fresh ∧
    (takeConfirmExpiry s).duty.freshTimer = s.duty.freshTimer ∧
    (takeConfirmExpiry s).duty.load = s.duty.load := by
  unfold takeConfirmExpiry
  (try dsimp only)
  (try split)
  all_goals (try split)
  all_goals (try split)
  all_goals simp

@[simp] theorem decideEngine_frame (s : State) :
    (decideEngine s).inputs = s.inputs ∧
    (decideEngine s).table = s.table ∧
    (decideEngine s).hires = s.hires ∧
    (decideEngine s).config = s.config ∧
    (decideEngine s).clock = s.clock ∧
    (decideEngine s).store = s.store ∧
    (decideEngine s).link = s.link ∧
    (decideEngine s).freePicks = s.freePicks ∧
    (decideEngine s).pending = s.pending ∧
    (decideEngine s).starts.life = s.starts.life ∧
    (decideEngine s).starts.log = s.starts.log ∧
    (decideEngine s).starts.next = s.starts.next ∧
    (decideEngine s).duty.gear = s.duty.gear ∧
    (decideEngine s).duty.heldGear = s.duty.heldGear ∧
    (decideEngine s).duty.runCount = s.duty.runCount ∧
    (decideEngine s).duty.coolant = s.duty.coolant ∧
    (decideEngine s).duty.fresh = s.duty.fresh ∧
    (decideEngine s).duty.freshTimer = s.duty.freshTimer ∧
    (decideEngine s).duty.load = s.duty.load ∧
    (decideEngine s).duty.meters = s.duty.meters ∧
    (decideEngine s).duty.clutch = s.duty.clutch ∧
    (decideEngine s).duty.lockTimer = s.duty.lockTimer := by
  unfold decideEngine
  (try dsimp only)
  (try split)
  all_goals (try split)
  all_goals (try split)
  all_goals simp

@[simp] theorem decideClutch_frame (s : State) :
    (decideClutch s).inputs = s.inputs ∧
    (decideClutch s).starts = s.starts ∧
    (decideClutch s).table = s.table ∧
    (decideClutch s).hires = s.hires ∧
    (decideClutch s).config = s.config ∧
    (decideClutch s).clock = s.clock ∧
    (decideClutch s).store = s.store ∧
    (decideClutch s).link = s.link ∧
    (decideClutch s).freePicks = s.freePicks ∧
    (decideClutch s).pending = s.pending ∧
    (decideClutch s).duty.gear = s.duty.gear ∧
    (decideClutch s).duty.heldGear = s.duty.heldGear ∧
    (decideClutch s).duty.runCount = s.duty.runCount ∧
    (decideClutch s).duty.coolant = s.duty.coolant ∧
    (decideClutch s).duty.fresh = s.duty.fresh ∧
    (decideClutch s).duty.freshTimer = s.duty.freshTimer ∧
    (decideClutch s).duty.load = s.duty.load ∧
    (decideClutch s).duty.engine = s.duty.engine ∧
    (decideClutch s).duty.confirmTimer = s.duty.confirmTimer ∧
    (decideClutch s).duty.meters = s.duty.meters := by
  unfold decideClutch
  (try dsimp only)
  (try split)
  all_goals (try split)
  all_goals (try split)
  all_goals simp

@[simp] theorem engageGear_frame (g : Gear) (s : State) :
    (engageGear g s).inputs = s.inputs ∧
    (engageGear g s).starts = s.starts ∧
    (engageGear g s).config = s.config ∧
    (engageGear g s).clock = s.clock ∧
    (engageGear g s).store = s.store ∧
    (engageGear g s).pending = s.pending ∧
    (engageGear g s).link.baudselHigh = s.link.baudselHigh ∧
    (engageGear g s).link.rx = s.link.rx ∧
    (engageGear g s).link.queue = s.link.queue ∧
    (engageGear g s).link.deferred = s.link.deferred ∧
    (engageGear g s).link.ready = s.link.ready ∧
    (engageGear g s).link.taken = s.link.taken ∧
    (engageGear g s).link.restartTaken = s.link.restartTaken ∧
    (engageGear g s).link.stream = s.link.stream ∧
    (engageGear g s).link.report = s.link.report ∧
    (engageGear g s).link.tx = s.link.tx ∧
    (engageGear g s).hires.settled = s.hires.settled ∧
    (engageGear g s).hires.history = s.hires.history ∧
    (engageGear g s).hires.released = s.hires.released ∧
    (engageGear g s).hires.next = s.hires.next ∧
    (engageGear g s).hires.secured = s.hires.secured ∧
    (engageGear g s).duty.engine = s.duty.engine ∧
    (engageGear g s).duty.clutch = s.duty.clutch ∧
    (engageGear g s).duty.confirmTimer = s.duty.confirmTimer ∧
    (engageGear g s).duty.lockTimer = s.duty.lockTimer ∧
    (engageGear g s).duty.coolant = s.duty.coolant ∧
    (engageGear g s).duty.fresh = s.duty.fresh ∧
    (engageGear g s).duty.freshTimer = s.duty.freshTimer ∧
    (engageGear g s).duty.load = s.duty.load ∧
    (engageGear g s).duty.gear = s.duty.gear ∧
    (engageGear g s).duty.heldGear = s.duty.heldGear ∧
    (engageGear g s).duty.runCount = s.duty.runCount := by
  unfold engageGear
  (try dsimp only)
  (try split)
  all_goals (try split)
  all_goals (try split)
  all_goals simp

@[simp] theorem trackGear_frame (s : State) :
    (trackGear s).inputs = s.inputs ∧
    (trackGear s).starts = s.starts ∧
    (trackGear s).config = s.config ∧
    (trackGear s).clock = s.clock ∧
    (trackGear s).store = s.store ∧
    (trackGear s).pending = s.pending ∧
    (trackGear s).link.baudselHigh = s.link.baudselHigh ∧
    (trackGear s).link.rx = s.link.rx ∧
    (trackGear s).link.queue = s.link.queue ∧
    (trackGear s).link.deferred = s.link.deferred ∧
    (trackGear s).link.ready = s.link.ready ∧
    (trackGear s).link.taken = s.link.taken ∧
    (trackGear s).link.restartTaken = s.link.restartTaken ∧
    (trackGear s).link.stream = s.link.stream ∧
    (trackGear s).link.report = s.link.report ∧
    (trackGear s).link.tx = s.link.tx ∧
    (trackGear s).hires.settled = s.hires.settled ∧
    (trackGear s).hires.history = s.hires.history ∧
    (trackGear s).hires.released = s.hires.released ∧
    (trackGear s).hires.next = s.hires.next ∧
    (trackGear s).hires.secured = s.hires.secured ∧
    (trackGear s).duty.engine = s.duty.engine ∧
    (trackGear s).duty.clutch = s.duty.clutch ∧
    (trackGear s).duty.confirmTimer = s.duty.confirmTimer ∧
    (trackGear s).duty.lockTimer = s.duty.lockTimer ∧
    (trackGear s).duty.coolant = s.duty.coolant ∧
    (trackGear s).duty.fresh = s.duty.fresh ∧
    (trackGear s).duty.freshTimer = s.duty.freshTimer ∧
    (trackGear s).duty.load = s.duty.load := by
  unfold trackGear
  (try dsimp only)
  (try split)
  all_goals (try split)
  all_goals (try split)
  all_goals simp

@[simp] theorem tallyMeters_frame (n : Nat) (s : State) :
    (tallyMeters n s).inputs = s.inputs ∧
    (tallyMeters n s).starts = s.starts ∧
    (tallyMeters n s).table = s.table ∧
    (tallyMeters n s).config = s.config ∧
    (tallyMeters n s).clock = s.clock ∧
    (tallyMeters n s).store = s.store ∧
    (tallyMeters n s).link = s.link ∧
    (tallyMeters n s).freePicks = s.freePicks ∧
    (tallyMeters n s).pending = s.pending ∧
    (tallyMeters n s).hires.idle = s.hires.idle ∧
    (tallyMeters n s).hires.settled = s.hires.settled ∧
    (tallyMeters n s).hires.history = s.hires.history ∧
    (tallyMeters n s).hires.released = s.hires.released ∧
    (tallyMeters n s).hires.next = s.hires.next ∧
    (tallyMeters n s).hires.secured = s.hires.secured ∧
    (tallyMeters n s).duty.engine = s.duty.engine ∧
    (tallyMeters n s).duty.clutch = s.duty.clutch ∧
    (tallyMeters n s).duty.confirmTimer = s.duty.confirmTimer ∧
    (tallyMeters n s).duty.lockTimer = s.duty.lockTimer ∧
    (tallyMeters n s).duty.gear = s.duty.gear ∧
    (tallyMeters n s).duty.heldGear = s.duty.heldGear ∧
    (tallyMeters n s).duty.runCount = s.duty.runCount ∧
    (tallyMeters n s).duty.coolant = s.duty.coolant ∧
    (tallyMeters n s).duty.fresh = s.duty.fresh ∧
    (tallyMeters n s).duty.freshTimer = s.duty.freshTimer ∧
    (tallyMeters n s).duty.load = s.duty.load := by
  unfold tallyMeters
  (try dsimp only)
  (try split)
  all_goals (try split)
  all_goals (try split)
  all_goals simp

@[simp] theorem goStale_frame (s : State) :
    (goStale s).inputs = s.inputs ∧
    (goStale s).starts = s.starts ∧
    (goStale s).table = s.table ∧
    (goStale s).hires = s.hires ∧
    (goStale s).config = s.config ∧
    (goStale s).clock = s.clock ∧
    (goStale s).store = s.store ∧
    (goStale s).freePicks = s.freePicks ∧
    (goStale s).pending = s.pending ∧
    (goStale s).link.baudselHigh = s.link.baudselHigh ∧
    (goStale s).link.rx = s.link.rx ∧
    (goStale s).link.queue = s.link.queue ∧
    (goStale s).link.deferred = s.link.deferred ∧
    (goStale s).link.ready = s.link.ready ∧
    (goStale s).link.taken = s.link.taken ∧
    (goStale s).link.restartTaken = s.link.restartTaken ∧
    (goStale s).link.stream = s.link.stream ∧
    (goStale s).link.report = s.link.report ∧
    (goStale s).link.tx = s.link.tx ∧
    (goStale s).duty.engine = s.duty.engine ∧
    (goStale s).duty.clutch = s.duty.clutch ∧
    (goStale s).duty.confirmTimer = s.duty.confirmTimer ∧
    (goStale s).duty.lockTimer = s.duty.lockTimer ∧
    (goStale s).duty.gear = s.duty.gear ∧
    (goStale s).duty.heldGear = s.duty.heldGear ∧
    (goStale s).duty.runCount = s.duty.runCount ∧
    (goStale s).duty.coolant = s.duty.coolant ∧
    (goStale s).duty.load = s.duty.load ∧
    (goStale s).duty.meters = s.duty.meters := by
  unfold goStale
  (try dsimp only)
  (try split)
  all_goals (try split)
  all_goals (try split)
  all_goals simp

@[simp] theorem takeFreshnessExpiry_frame (s : State) :
    (takeFreshnessExpiry s).inputs = s.inputs ∧
    (takeFreshnessExpiry s).starts = s.starts ∧
    (takeFreshnessExpiry s).table = s.table ∧
    (takeFreshnessExpiry s).hires = s.hires ∧
    (takeFreshnessExpiry s).config = s.config ∧
    (takeFreshnessExpiry s).clock = s.clock ∧
    (takeFreshnessExpiry s).store = s.store ∧
    (takeFreshnessExpiry s).freePicks = s.freePicks ∧
    (takeFreshnessExpiry s).pending = s.pending ∧
    (takeFreshnessExpiry s).link.baudselHigh = s.link.baudselHigh ∧
    (takeFreshnessExpiry s).link.rx = s.link.rx ∧
    (takeFreshnessExpiry s).link.queue = s.link.queue ∧
    (takeFreshnessExpiry s).link.deferred = s.link.deferred ∧
    (takeFreshnessExpiry s).link.ready = s.link.ready ∧
    (takeFreshnessExpiry s).link.taken = s.link.taken ∧
    (takeFreshnessExpiry s).link.restartTaken = s.link.restartTaken ∧
    (takeFreshnessExpiry s).link.stream = s.link.stream ∧
    (takeFreshnessExpiry s).link.report = s.link.report ∧
    (takeFreshnessExpiry s).link.tx = s.link.tx ∧
    (takeFreshnessExpiry s).duty.engine = s.duty.engine ∧
    (takeFreshnessExpiry s).duty.clutch = s.duty.clutch ∧
    (takeFreshnessExpiry s).duty.confirmTimer = s.duty.confirmTimer ∧
    (takeFreshnessExpiry s).duty.lockTimer = s.duty.lockTimer ∧
    (takeFreshnessExpiry s).duty.gear = s.duty.gear ∧
    (takeFreshnessExpiry s).duty.heldGear = s.duty.heldGear ∧
    (takeFreshnessExpiry s).duty.runCount = s.duty.runCount ∧
    (takeFreshnessExpiry s).duty.coolant = s.duty.coolant ∧
    (takeFreshnessExpiry s).duty.load = s.duty.load ∧
    (takeFreshnessExpiry s).duty.meters = s.duty.meters := by
  unfold takeFreshnessExpiry
  (try dsimp only)
  (try split)
  all_goals (try split)
  all_goals (try split)
  all_goals simp

@[simp] theorem declare_frame (l : LoadState) (c : Option Int) (s : State) :
    (declare l c s).inputs = s.inputs ∧
    (declare l c s).starts = s.starts ∧
    (declare l c s).table = s.table ∧
    (declare l c s).hires = s.hires ∧
    (declare l c s).config = s.config ∧
    (declare l c s).clock = s.clock ∧
    (declare l c s).store = s.store ∧
    (declare l c s).freePicks = s.freePicks ∧
    (declare l c s).pending = s.pending ∧
    (declare l c s).link.baudselHigh = s.link.baudselHigh ∧
    (declare l c s).link.rx = s.link.rx ∧
    (declare l c s).link.queue = s.link.queue ∧
    (declare l c s).link.deferred = s.link.deferred ∧
    (declare l c s).link.ready = s.link.ready ∧
    (declare l c s).link.taken = s.link.taken ∧
    (declare l c s).link.restartTaken = s.link.restartTaken ∧
    (declare l c s).link.stream = s.link.stream ∧
    (declare l c s).link.report = s.link.report ∧
    (declare l c s).link.tx = s.link.tx ∧
    (declare l c s).duty.engine = s.duty.engine ∧
    (declare l c s).duty.clutch = s.duty.clutch ∧
    (declare l c s).duty.confirmTimer = s.duty.confirmTimer ∧
    (declare l c s).duty.lockTimer = s.duty.lockTimer ∧
    (declare l c s).duty.gear = s.duty.gear ∧
    (declare l c s).duty.heldGear = s.duty.heldGear ∧
    (declare l c s).duty.runCount = s.duty.runCount ∧
    (declare l c s).duty.meters = s.duty.meters := by
  unfold declare
  (try dsimp only)
  (try split)
  all_goals (try split)
  all_goals (try split)
  all_goals simp

@[simp] theorem putChannel_frame (sh : Shaft) (v : Channel) (b : Bool) (s : State) :
    (putChannel sh v b s).config = s.config ∧
    (putChannel sh v b s).clock = s.clock ∧
    (putChannel sh v b s).store = s.store ∧
    (putChannel sh v b s).pending = s.pending ∧
    (putChannel sh v b s).link.baudselHigh = s.link.baudselHigh ∧
    (putChannel sh v b s).link.rx = s.link.rx ∧
    (putChannel sh v b s).link.queue = s.link.queue ∧
    (putChannel sh v b s).link.deferred = s.link.deferred ∧
    (putChannel sh v b s).link.ready = s.link.ready ∧
    (putChannel sh v b s).link.taken = s.link.taken ∧
    (putChannel sh v b s).link.restartTaken = s.link.restartTaken ∧
    (putChannel sh v b s).link.stream = s.link.stream ∧
    (putChannel sh v b s).link.report = s.link.report ∧
    (putChannel sh v b s).link.tx = s.link.tx ∧
    (putChannel sh v b s).hires.settled = s.hires.settled ∧
    (putChannel sh v b s).hires.history = s.hires.history ∧
    (putChannel sh v b s).hires.released = s.hires.released ∧
    (putChannel sh v b s).hires.next = s.hires.next ∧
    (putChannel sh v b s).hires.secured = s.hires.secured ∧
    (putChannel sh v b s).duty.gear = s.duty.gear ∧
    (putChannel sh v b s).duty.heldGear = s.duty.heldGear ∧
    (putChannel sh v b s).duty.runCount = s.duty.runCount ∧
    (putChannel sh v b s).duty.coolant = s.duty.coolant ∧
    (putChannel sh v b s).duty.fresh = s.duty.fresh ∧
    (putChannel sh v b s).duty.freshTimer = s.duty.freshTimer ∧
    (putChannel sh v b s).duty.load = s.duty.load ∧
    (putChannel sh v b s).inputs.ign = s.inputs.ign ∧
    (putChannel sh v b s).inputs.crk = s.inputs.crk ∧
    (putChannel sh v b s).inputs.clu = s.inputs.clu ∧
    (putChannel sh v b s).inputs.rvs = s.inputs.rvs ∧
    (putChannel sh v b s).inputs.vbat = s.inputs.vbat ∧
    (putChannel sh v b s).inputs.supply = s.inputs.supply ∧
    (putChannel sh v b s).inputs.captureUs = s.inputs.captureUs ∧
    (putChannel sh v b s).inputs.tickUs = s.inputs.tickUs ∧
    (putChannel sh v b s).inputs.outRemainder = s.inputs.outRemainder ∧
    (putChannel sh v b s).inputs.outPending = s.inputs.outPending := by
  unfold putChannel Inputs.setChannel
  cases sh <;> (dsimp only; split <;> simp)

@[simp] theorem takeStall_frame (sh : Shaft) (b : Bool) (s : State) :
    (takeStall sh b s).config = s.config ∧
    (takeStall sh b s).clock = s.clock ∧
    (takeStall sh b s).store = s.store ∧
    (takeStall sh b s).pending = s.pending ∧
    (takeStall sh b s).link.baudselHigh = s.link.baudselHigh ∧
    (takeStall sh b s).link.rx = s.link.rx ∧
    (takeStall sh b s).link.queue = s.link.queue ∧
    (takeStall sh b s).link.deferred = s.link.deferred ∧
    (takeStall sh b s).link.ready = s.link.ready ∧
    (takeStall sh b s).link.taken = s.link.taken ∧
    (takeStall sh b s).link.restartTaken = s.link.restartTaken ∧
    (takeStall sh b s).link.stream = s.link.stream ∧
    (takeStall sh b s).link.report = s.link.report ∧
    (takeStall sh b s).link.tx = s.link.tx ∧
    (takeStall sh b s).hires.settled = s.hires.settled ∧
    (takeStall sh b s).hires.history = s.hires.history ∧
    (takeStall sh b s).hires.released = s.hires.released ∧
    (takeStall sh b s).hires.next = s.hires.next ∧
    (takeStall sh b s).hires.secured = s.hires.secured ∧
    (takeStall sh b s).duty.gear = s.duty.gear ∧
    (takeStall sh b s).duty.heldGear = s.duty.heldGear ∧
    (takeStall sh b s).duty.runCount = s.duty.runCount ∧
    (takeStall sh b s).duty.coolant = s.duty.coolant ∧
    (takeStall sh b s).duty.fresh = s.duty.fresh ∧
    (takeStall sh b s).duty.freshTimer = s.duty.freshTimer ∧
    (takeStall sh b s).duty.load = s.duty.load ∧
    (takeStall sh b s).inputs.ign = s.inputs.ign ∧
    (takeStall sh b s).inputs.crk = s.inputs.crk ∧
    (takeStall sh b s).inputs.clu = s.inputs.clu ∧
    (takeStall sh b s).inputs.rvs = s.inputs.rvs ∧
    (takeStall sh b s).inputs.vbat = s.inputs.vbat ∧
    (takeStall sh b s).inputs.supply = s.inputs.supply ∧
    (takeStall sh b s).inputs.captureUs = s.inputs.captureUs ∧
    (takeStall sh b s).inputs.tickUs = s.inputs.tickUs ∧
    (takeStall sh b s).inputs.outRemainder = s.inputs.outRemainder ∧
    (takeStall sh b s).inputs.outPending = s.inputs.outPending := by
  unfold takeStall
  (try dsimp only)
  (try split)
  all_goals (try split)
  all_goals (try split)
  all_goals simp

@[simp] theorem takeOverdueStall_frame (s : State) :
    (takeOverdueStall s).config = s.config ∧
    (takeOverdueStall s).clock = s.clock ∧
    (takeOverdueStall s).store = s.store ∧
    (takeOverdueStall s).pending = s.pending ∧
    (takeOverdueStall s).link.baudselHigh = s.link.baudselHigh ∧
    (takeOverdueStall s).link.rx = s.link.rx ∧
    (takeOverdueStall s).link.queue = s.link.queue ∧
    (takeOverdueStall s).link.deferred = s.link.deferred ∧
    (takeOverdueStall s).link.ready = s.link.ready ∧
    (takeOverdueStall s).link.taken = s.link.taken ∧
    (takeOverdueStall s).link.restartTaken = s.link.restartTaken ∧
    (takeOverdueStall s).link.stream = s.link.stream ∧
    (takeOverdueStall s).link.report = s.link.report ∧
    (takeOverdueStall s).link.tx = s.link.tx ∧
    (takeOverdueStall s).hires.settled = s.hires.settled ∧
    (takeOverdueStall s).hires.history = s.hires.history ∧
    (takeOverdueStall s).hires.released = s.hires.released ∧
    (takeOverdueStall s).hires.next = s.hires.next ∧
    (takeOverdueStall s).hires.secured = s.hires.secured ∧
    (takeOverdueStall s).duty.gear = s.duty.gear ∧
    (takeOverdueStall s).duty.heldGear = s.duty.heldGear ∧
    (takeOverdueStall s).duty.runCount = s.duty.runCount ∧
    (takeOverdueStall s).duty.coolant = s.duty.coolant ∧
    (takeOverdueStall s).duty.fresh = s.duty.fresh ∧
    (takeOverdueStall s).duty.freshTimer = s.duty.freshTimer ∧
    (takeOverdueStall s).duty.load = s.duty.load ∧
    (takeOverdueStall s).inputs.ign = s.inputs.ign ∧
    (takeOverdueStall s).inputs.crk = s.inputs.crk ∧
    (takeOverdueStall s).inputs.clu = s.inputs.clu ∧
    (takeOverdueStall s).inputs.rvs = s.inputs.rvs ∧
    (takeOverdueStall s).inputs.vbat = s.inputs.vbat ∧
    (takeOverdueStall s).inputs.supply = s.inputs.supply ∧
    (takeOverdueStall s).inputs.captureUs = s.inputs.captureUs ∧
    (takeOverdueStall s).inputs.tickUs = s.inputs.tickUs ∧
    (takeOverdueStall s).inputs.outRemainder = s.inputs.outRemainder ∧
    (takeOverdueStall s).inputs.outPending = s.inputs.outPending := by
  unfold takeOverdueStall
  (try dsimp only)
  (try split)
  all_goals (try split)
  all_goals (try split)
  all_goals simp

@[simp] theorem drainOut_frame (s : State) :
    (drainOut s).duty = s.duty ∧
    (drainOut s).starts = s.starts ∧
    (drainOut s).table = s.table ∧
    (drainOut s).hires = s.hires ∧
    (drainOut s).config = s.config ∧
    (drainOut s).clock = s.clock ∧
    (drainOut s).store = s.store ∧
    (drainOut s).link = s.link ∧
    (drainOut s).freePicks = s.freePicks ∧
    (drainOut s).pending = s.pending ∧
    (drainOut s).inputs.ign = s.inputs.ign ∧
    (drainOut s).inputs.crk = s.inputs.crk ∧
    (drainOut s).inputs.clu = s.inputs.clu ∧
    (drainOut s).inputs.rvs = s.inputs.rvs ∧
    (drainOut s).inputs.vbat = s.inputs.vbat ∧
    (drainOut s).inputs.supply = s.inputs.supply ∧
    (drainOut s).inputs.captureUs = s.inputs.captureUs ∧
    (drainOut s).inputs.tickUs = s.inputs.tickUs ∧
    (drainOut s).inputs.outRemainder = s.inputs.outRemainder ∧
    (drainOut s).inputs.eng = s.inputs.eng ∧
    (drainOut s).inputs.inp = s.inputs.inp ∧
    (drainOut s).inputs.out = s.inputs.out := ⟨rfl, rfl, rfl, rfl, rfl, rfl, rfl, rfl, rfl, rfl, rfl, rfl, rfl, rfl, rfl, rfl, rfl, rfl, rfl, rfl, rfl, rfl⟩

@[simp] theorem loadDoze_frame (s : State) :
    (loadDoze s).inputs = s.inputs ∧
    (loadDoze s).duty = s.duty ∧
    (loadDoze s).starts = s.starts ∧
    (loadDoze s).table = s.table ∧
    (loadDoze s).hires = s.hires ∧
    (loadDoze s).config = s.config ∧
    (loadDoze s).store = s.store ∧
    (loadDoze s).link = s.link ∧
    (loadDoze s).freePicks = s.freePicks ∧
    (loadDoze s).pending = s.pending ∧
    (loadDoze s).clock.time = s.clock.time ∧
    (loadDoze s).clock.power = s.clock.power ∧
    (loadDoze s).clock.phase = s.clock.phase ∧
    (loadDoze s).clock.hold = s.clock.hold ∧
    (loadDoze s).clock.sleep = s.clock.sleep ∧
    (loadDoze s).clock.tallyDue = s.clock.tallyDue ∧
    (loadDoze s).clock.secondStep = s.clock.secondStep ∧
    (loadDoze s).clock.waking = s.clock.waking ∧
    (loadDoze s).clock.supplyOn = s.clock.supplyOn ∧
    (loadDoze s).clock.resetnHigh = s.clock.resetnHigh ∧
    (loadDoze s).clock.outcome = s.clock.outcome ∧
    (loadDoze s).clock.lampCheck = s.clock.lampCheck := ⟨rfl, rfl, rfl, rfl, rfl, rfl, rfl, rfl, rfl, rfl, rfl, rfl, rfl, rfl, rfl, rfl, rfl, rfl, rfl, rfl, rfl, rfl⟩

@[simp] theorem reloadDoze_frame (s : State) :
    (reloadDoze s).inputs = s.inputs ∧
    (reloadDoze s).duty = s.duty ∧
    (reloadDoze s).starts = s.starts ∧
    (reloadDoze s).table = s.table ∧
    (reloadDoze s).hires = s.hires ∧
    (reloadDoze s).config = s.config ∧
    (reloadDoze s).store = s.store ∧
    (reloadDoze s).link = s.link ∧
    (reloadDoze s).freePicks = s.freePicks ∧
    (reloadDoze s).pending = s.pending ∧
    (reloadDoze s).clock.time = s.clock.time ∧
    (reloadDoze s).clock.power = s.clock.power ∧
    (reloadDoze s).clock.phase = s.clock.phase ∧
    (reloadDoze s).clock.hold = s.clock.hold ∧
    (reloadDoze s).clock.sleep = s.clock.sleep ∧
    (reloadDoze s).clock.tallyDue = s.clock.tallyDue ∧
    (reloadDoze s).clock.secondStep = s.clock.secondStep ∧
    (reloadDoze s).clock.waking = s.clock.waking ∧
    (reloadDoze s).clock.supplyOn = s.clock.supplyOn ∧
    (reloadDoze s).clock.resetnHigh = s.clock.resetnHigh ∧
    (reloadDoze s).clock.outcome = s.clock.outcome ∧
    (reloadDoze s).clock.lampCheck = s.clock.lampCheck := by
  unfold reloadDoze
  (try dsimp only)
  (try split)
  all_goals (try split)
  all_goals (try split)
  all_goals simp

@[simp] theorem cancelSleep_frame (s : State) :
    (cancelSleep s).inputs = s.inputs ∧
    (cancelSleep s).duty = s.duty ∧
    (cancelSleep s).starts = s.starts ∧
    (cancelSleep s).table = s.table ∧
    (cancelSleep s).hires = s.hires ∧
    (cancelSleep s).config = s.config ∧
    (cancelSleep s).store = s.store ∧
    (cancelSleep s).freePicks = s.freePicks ∧
    (cancelSleep s).pending = s.pending ∧
    (cancelSleep s).clock.time = s.clock.time ∧
    (cancelSleep s).clock.power = s.clock.power ∧
    (cancelSleep s).clock.phase = s.clock.phase ∧
    (cancelSleep s).clock.hold = s.clock.hold ∧
    (cancelSleep s).clock.tallyDue = s.clock.tallyDue ∧
    (cancelSleep s).clock.secondStep = s.clock.secondStep ∧
    (cancelSleep s).clock.waking = s.clock.waking ∧
    (cancelSleep s).clock.supplyOn = s.clock.supplyOn ∧
    (cancelSleep s).clock.resetnHigh = s.clock.resetnHigh ∧
    (cancelSleep s).clock.outcome = s.clock.outcome ∧
    (cancelSleep s).clock.lampCheck = s.clock.lampCheck ∧
    (cancelSleep s).link.baudselHigh = s.link.baudselHigh ∧
    (cancelSleep s).link.rx = s.link.rx ∧
    (cancelSleep s).link.queue = s.link.queue ∧
    (cancelSleep s).link.restartTaken = s.link.restartTaken ∧
    (cancelSleep s).link.flags = s.link.flags ∧
    (cancelSleep s).link.stream = s.link.stream ∧
    (cancelSleep s).link.report = s.link.report := by
  unfold cancelSleep
  split <;> simp [Link.mapAfter]

@[simp] theorem enterSleep_frame (s : State) :
    (enterSleep s).starts = s.starts ∧
    (enterSleep s).hires = s.hires ∧
    (enterSleep s).config = s.config ∧
    (enterSleep s).store = s.store ∧
    (enterSleep s).freePicks = s.freePicks ∧
    (enterSleep s).pending = s.pending ∧
    (enterSleep s).inputs.outRemainder = s.inputs.outRemainder ∧
    (enterSleep s).inputs.outPending = s.inputs.outPending ∧
    (enterSleep s).inputs.captureUs = s.inputs.captureUs ∧
    (enterSleep s).inputs.tickUs = s.inputs.tickUs ∧
    (enterSleep s).inputs.vbat = s.inputs.vbat ∧
    (enterSleep s).inputs.supply = s.inputs.supply ∧
    (enterSleep s).inputs.ign.level = s.inputs.ign.level ∧
    (enterSleep s).inputs.crk.level = s.inputs.crk.level ∧
    (enterSleep s).inputs.clu.level = s.inputs.clu.level ∧
    (enterSleep s).inputs.rvs.level = s.inputs.rvs.level ∧
    (enterSleep s).duty.meters = s.duty.meters ∧
    (enterSleep s).duty.engine = s.duty.engine ∧
    (enterSleep s).duty.clutch = s.duty.clutch ∧
    (enterSleep s).duty.confirmTimer = s.duty.confirmTimer ∧
    (enterSleep s).duty.lockTimer = s.duty.lockTimer ∧
    (enterSleep s).duty.coolant = s.duty.coolant ∧
    (enterSleep s).duty.fresh = s.duty.fresh ∧
    (enterSleep s).duty.freshTimer = s.duty.freshTimer ∧
    (enterSleep s).duty.load = s.duty.load ∧
    (enterSleep s).table.slots = s.table.slots ∧
    (enterSleep s).clock.time = s.clock.time ∧
    (enterSleep s).clock.phase = s.clock.phase ∧
    (enterSleep s).clock.hold = s.clock.hold ∧
    (enterSleep s).clock.supplyOn = s.clock.supplyOn ∧
    (enterSleep s).clock.resetnHigh = s.clock.resetnHigh ∧
    (enterSleep s).clock.outcome = s.clock.outcome ∧
    (enterSleep s).link.baudselHigh = s.link.baudselHigh ∧
    (enterSleep s).link.queue = s.link.queue ∧
    (enterSleep s).link.restartTaken = s.link.restartTaken ∧
    (enterSleep s).link.flags = s.link.flags ∧
    (enterSleep s).link.deferred = s.link.deferred ∧
    (enterSleep s).link.ready = s.link.ready ∧
    (enterSleep s).link.taken = s.link.taken ∧
    (enterSleep s).link.tx = s.link.tx := ⟨rfl, rfl, rfl, rfl, rfl, rfl, rfl, rfl, rfl, rfl, rfl, rfl, rfl, rfl, rfl, rfl, rfl, rfl, rfl, rfl, rfl, rfl, rfl, rfl, rfl, rfl, rfl, rfl, rfl, rfl, rfl, rfl, rfl, rfl, rfl, rfl, rfl, rfl, rfl, rfl⟩

@[simp] theorem sleepTest_frame (s : State) :
    (sleepTest s).starts = s.starts ∧
    (sleepTest s).hires = s.hires ∧
    (sleepTest s).config = s.config ∧
    (sleepTest s).store = s.store ∧
    (sleepTest s).freePicks = s.freePicks ∧
    (sleepTest s).pending = s.pending ∧
    (sleepTest s).inputs.outRemainder = s.inputs.outRemainder ∧
    (sleepTest s).inputs.outPending = s.inputs.outPending ∧
    (sleepTest s).inputs.captureUs = s.inputs.captureUs ∧
    (sleepTest s).inputs.tickUs = s.inputs.tickUs ∧
    (sleepTest s).inputs.vbat = s.inputs.vbat ∧
    (sleepTest s).inputs.supply = s.inputs.supply ∧
    (sleepTest s).inputs.ign.level = s.inputs.ign.level ∧
    (sleepTest s).inputs.crk.level = s.inputs.crk.level ∧
    (sleepTest s).inputs.clu.level = s.inputs.clu.level ∧
    (sleepTest s).inputs.rvs.level = s.inputs.rvs.level ∧
    (sleepTest s).duty.meters = s.duty.meters ∧
    (sleepTest s).duty.engine = s.duty.engine ∧
    (sleepTest s).duty.clutch = s.duty.clutch ∧
    (sleepTest s).duty.confirmTimer = s.duty.confirmTimer ∧
    (sleepTest s).duty.lockTimer = s.duty.lockTimer ∧
    (sleepTest s).duty.coolant = s.duty.coolant ∧
    (sleepTest s).duty.fresh = s.duty.fresh ∧
    (sleepTest s).duty.freshTimer = s.duty.freshTimer ∧
    (sleepTest s).duty.load = s.duty.load ∧
    (sleepTest s).table.slots = s.table.slots ∧
    (sleepTest s).clock.time = s.clock.time ∧
    (sleepTest s).clock.phase = s.clock.phase ∧
    (sleepTest s).clock.hold = s.clock.hold ∧
    (sleepTest s).clock.supplyOn = s.clock.supplyOn ∧
    (sleepTest s).clock.resetnHigh = s.clock.resetnHigh ∧
    (sleepTest s).clock.outcome = s.clock.outcome ∧
    (sleepTest s).link.baudselHigh = s.link.baudselHigh ∧
    (sleepTest s).link.queue = s.link.queue ∧
    (sleepTest s).link.restartTaken = s.link.restartTaken ∧
    (sleepTest s).link.flags = s.link.flags := by
  unfold sleepTest
  repeat' split
  all_goals simp

@[simp] theorem bindNext_frame (s : State) :
    (bindNext s).inputs = s.inputs ∧
    (bindNext s).duty = s.duty ∧
    (bindNext s).starts = s.starts ∧
    (bindNext s).table = s.table ∧
    (bindNext s).hires = s.hires ∧
    (bindNext s).config = s.config ∧
    (bindNext s).store = s.store ∧
    (bindNext s).freePicks = s.freePicks ∧
    (bindNext s).pending = s.pending ∧
    (bindNext s).link.baudselHigh = s.link.baudselHigh ∧
    (bindNext s).link.rx = s.link.rx ∧
    (bindNext s).link.queue = s.link.queue ∧
    (bindNext s).link.restartTaken = s.link.restartTaken ∧
    (bindNext s).link.flags = s.link.flags ∧
    (bindNext s).link.stream = s.link.stream ∧
    (bindNext s).link.report = s.link.report ∧
    (bindNext s).link.ready = s.link.ready ∧
    (bindNext s).link.taken = s.link.taken ∧
    (bindNext s).link.tx = s.link.tx ∧
    (bindNext s).clock.time = s.clock.time ∧
    (bindNext s).clock.power = s.clock.power ∧
    (bindNext s).clock.phase = s.clock.phase ∧
    (bindNext s).clock.hold = s.clock.hold ∧
    (bindNext s).clock.doze = s.clock.doze ∧
    (bindNext s).clock.dozeDue = s.clock.dozeDue ∧
    (bindNext s).clock.tallyDue = s.clock.tallyDue ∧
    (bindNext s).clock.secondStep = s.clock.secondStep ∧
    (bindNext s).clock.waking = s.clock.waking ∧
    (bindNext s).clock.supplyOn = s.clock.supplyOn ∧
    (bindNext s).clock.resetnHigh = s.clock.resetnHigh ∧
    (bindNext s).clock.outcome = s.clock.outcome ∧
    (bindNext s).clock.lampCheck = s.clock.lampCheck := ⟨rfl, rfl, rfl, rfl, rfl, rfl, rfl, rfl, rfl, rfl, rfl, rfl, rfl, rfl, rfl, rfl, rfl, rfl, rfl, rfl, rfl, rfl, rfl, rfl, rfl, rfl, rfl, rfl, rfl, rfl, rfl, rfl⟩

@[simp] theorem releaseReplies_frame (ok : Bool) (w : Option (Nat × Area)) (s : State) :
    (releaseReplies ok w s).inputs = s.inputs ∧
    (releaseReplies ok w s).duty = s.duty ∧
    (releaseReplies ok w s).starts = s.starts ∧
    (releaseReplies ok w s).table = s.table ∧
    (releaseReplies ok w s).hires = s.hires ∧
    (releaseReplies ok w s).config = s.config ∧
    (releaseReplies ok w s).clock = s.clock ∧
    (releaseReplies ok w s).store = s.store ∧
    (releaseReplies ok w s).freePicks = s.freePicks ∧
    (releaseReplies ok w s).pending = s.pending ∧
    (releaseReplies ok w s).link.baudselHigh = s.link.baudselHigh ∧
    (releaseReplies ok w s).link.rx = s.link.rx ∧
    (releaseReplies ok w s).link.queue = s.link.queue ∧
    (releaseReplies ok w s).link.taken = s.link.taken ∧
    (releaseReplies ok w s).link.restartTaken = s.link.restartTaken ∧
    (releaseReplies ok w s).link.flags = s.link.flags ∧
    (releaseReplies ok w s).link.stream = s.link.stream ∧
    (releaseReplies ok w s).link.report = s.link.report ∧
    (releaseReplies ok w s).link.tx = s.link.tx := ⟨rfl, rfl, rfl, rfl, rfl, rfl, rfl, rfl, rfl, rfl, rfl, rfl, rfl, rfl, rfl, rfl, rfl, rfl, rfl⟩

@[simp] theorem completionReaches_frame (ok : Bool) (w : Option (Nat × Area)) (n : Option Nat) (h : Bool) (s : State) :
    (completionReaches ok w n h s).inputs = s.inputs ∧
    (completionReaches ok w n h s).duty = s.duty ∧
    (completionReaches ok w n h s).starts = s.starts ∧
    (completionReaches ok w n h s).table = s.table ∧
    (completionReaches ok w n h s).config = s.config ∧
    (completionReaches ok w n h s).store = s.store ∧
    (completionReaches ok w n h s).freePicks = s.freePicks ∧
    (completionReaches ok w n h s).pending = s.pending ∧
    (completionReaches ok w n h s).link.baudselHigh = s.link.baudselHigh ∧
    (completionReaches ok w n h s).link.rx = s.link.rx ∧
    (completionReaches ok w n h s).link.queue = s.link.queue ∧
    (completionReaches ok w n h s).link.restartTaken = s.link.restartTaken ∧
    (completionReaches ok w n h s).link.flags = s.link.flags ∧
    (completionReaches ok w n h s).link.stream = s.link.stream ∧
    (completionReaches ok w n h s).link.report = s.link.report ∧
    (completionReaches ok w n h s).link.tx = s.link.tx ∧
    (completionReaches ok w n h s).hires.current = s.hires.current ∧
    (completionReaches ok w n h s).hires.idle = s.hires.idle ∧
    (completionReaches ok w n h s).hires.settled = s.hires.settled ∧
    (completionReaches ok w n h s).hires.history = s.hires.history ∧
    (completionReaches ok w n h s).hires.released = s.hires.released ∧
    (completionReaches ok w n h s).hires.next = s.hires.next ∧
    (completionReaches ok w n h s).clock.time = s.clock.time ∧
    (completionReaches ok w n h s).clock.power = s.clock.power ∧
    (completionReaches ok w n h s).clock.phase = s.clock.phase ∧
    (completionReaches ok w n h s).clock.doze = s.clock.doze ∧
    (completionReaches ok w n h s).clock.dozeDue = s.clock.dozeDue ∧
    (completionReaches ok w n h s).clock.tallyDue = s.clock.tallyDue ∧
    (completionReaches ok w n h s).clock.secondStep = s.clock.secondStep ∧
    (completionReaches ok w n h s).clock.waking = s.clock.waking ∧
    (completionReaches ok w n h s).clock.supplyOn = s.clock.supplyOn ∧
    (completionReaches ok w n h s).clock.resetnHigh = s.clock.resetnHigh ∧
    (completionReaches ok w n h s).clock.outcome = s.clock.outcome ∧
    (completionReaches ok w n h s).clock.lampCheck = s.clock.lampCheck := ⟨rfl, rfl, rfl, rfl, rfl, rfl, rfl, rfl, rfl, rfl, rfl, rfl, rfl, rfl, rfl, rfl, rfl, rfl, rfl, rfl, rfl, rfl, rfl, rfl, rfl, rfl, rfl, rfl, rfl, rfl, rfl, rfl, rfl, rfl⟩

@[simp] theorem beginCommit_frame (s : State) :
    (beginCommit s).starts = s.starts ∧
    (beginCommit s).config = s.config ∧
    (beginCommit s).freePicks = s.freePicks ∧
    (beginCommit s).pending = s.pending ∧
    (beginCommit s).hires.current = s.hires.current ∧
    (beginCommit s).hires.idle = s.hires.idle ∧
    (beginCommit s).hires.settled = s.hires.settled ∧
    (beginCommit s).hires.history = s.hires.history ∧
    (beginCommit s).hires.released = s.hires.released ∧
    (beginCommit s).hires.next = s.hires.next ∧
    (beginCommit s).inputs.outRemainder = s.inputs.outRemainder ∧
    (beginCommit s).inputs.outPending = s.inputs.outPending ∧
    (beginCommit s).inputs.captureUs = s.inputs.captureUs ∧
    (beginCommit s).inputs.tickUs = s.inputs.tickUs ∧
    (beginCommit s).inputs.vbat = s.inputs.vbat ∧
    (beginCommit s).inputs.supply = s.inputs.supply ∧
    (beginCommit s).inputs.ign.level = s.inputs.ign.level ∧
    (beginCommit s).inputs.crk.level = s.inputs.crk.level ∧
    (beginCommit s).inputs.clu.level = s.inputs.clu.level ∧
    (beginCommit s).inputs.rvs.level = s.inputs.rvs.level ∧
    (beginCommit s).duty.meters = s.duty.meters ∧
    (beginCommit s).duty.engine = s.duty.engine ∧
    (beginCommit s).duty.clutch = s.duty.clutch ∧
    (beginCommit s).duty.confirmTimer = s.duty.confirmTimer ∧
    (beginCommit s).duty.lockTimer = s.duty.lockTimer ∧
    (beginCommit s).duty.coolant = s.duty.coolant ∧
    (beginCommit s).duty.fresh = s.duty.fresh ∧
    (beginCommit s).duty.freshTimer = s.duty.freshTimer ∧
    (beginCommit s).duty.load = s.duty.load ∧
    (beginCommit s).table.slots = s.table.slots ∧
    (beginCommit s).clock.time = s.clock.time ∧
    (beginCommit s).clock.phase = s.clock.phase ∧
    (beginCommit s).clock.supplyOn = s.clock.supplyOn ∧
    (beginCommit s).clock.resetnHigh = s.clock.resetnHigh ∧
    (beginCommit s).clock.outcome = s.clock.outcome ∧
    (beginCommit s).link.baudselHigh = s.link.baudselHigh ∧
    (beginCommit s).link.queue = s.link.queue ∧
    (beginCommit s).link.restartTaken = s.link.restartTaken ∧
    (beginCommit s).link.flags = s.link.flags ∧
    (beginCommit s).store.areas = s.store.areas ∧
    (beginCommit s).store.usable = s.store.usable ∧
    (beginCommit s).store.faultSeen = s.store.faultSeen ∧
    (beginCommit s).hires.secured = s.hires.secured := by
  unfold beginCommit
  split <;> simp [completionReaches]

@[simp] theorem askCommit_frame (s : State) :
    (askCommit s).starts = s.starts ∧
    (askCommit s).config = s.config ∧
    (askCommit s).freePicks = s.freePicks ∧
    (askCommit s).pending = s.pending ∧
    (askCommit s).hires.current = s.hires.current ∧
    (askCommit s).hires.idle = s.hires.idle ∧
    (askCommit s).hires.settled = s.hires.settled ∧
    (askCommit s).hires.history = s.hires.history ∧
    (askCommit s).hires.released = s.hires.released ∧
    (askCommit s).hires.next = s.hires.next ∧
    (askCommit s).inputs.outRemainder = s.inputs.outRemainder ∧
    (askCommit s).inputs.outPending = s.inputs.outPending ∧
    (askCommit s).inputs.captureUs = s.inputs.captureUs ∧
    (askCommit s).inputs.tickUs = s.inputs.tickUs ∧
    (askCommit s).inputs.vbat = s.inputs.vbat ∧
    (askCommit s).inputs.supply = s.inputs.supply ∧
    (askCommit s).inputs.ign.level = s.inputs.ign.level ∧
    (askCommit s).inputs.crk.level = s.inputs.crk.level ∧
    (askCommit s).inputs.clu.level = s.inputs.clu.level ∧
    (askCommit s).inputs.rvs.level = s.inputs.rvs.level ∧
    (askCommit s).duty.meters = s.duty.meters ∧
    (askCommit s).duty.engine = s.duty.engine ∧
    (askCommit s).duty.clutch = s.duty.clutch ∧
    (askCommit s).duty.confirmTimer = s.duty.confirmTimer ∧
    (askCommit s).duty.lockTimer = s.duty.lockTimer ∧
    (askCommit s).duty.coolant = s.duty.coolant ∧
    (askCommit s).duty.fresh = s.duty.fresh ∧
    (askCommit s).duty.freshTimer = s.duty.freshTimer ∧
    (askCommit s).duty.load = s.duty.load ∧
    (askCommit s).table.slots = s.table.slots ∧
    (askCommit s).clock.time = s.clock.time ∧
    (askCommit s).clock.phase = s.clock.phase ∧
    (askCommit s).clock.supplyOn = s.clock.supplyOn ∧
    (askCommit s).clock.resetnHigh = s.clock.resetnHigh ∧
    (askCommit s).clock.outcome = s.clock.outcome ∧
    (askCommit s).link.baudselHigh = s.link.baudselHigh ∧
    (askCommit s).link.queue = s.link.queue ∧
    (askCommit s).link.restartTaken = s.link.restartTaken ∧
    (askCommit s).link.flags = s.link.flags ∧
    (askCommit s).store.areas = s.store.areas ∧
    (askCommit s).store.usable = s.store.usable ∧
    (askCommit s).store.faultSeen = s.store.faultSeen ∧
    (askCommit s).hires.secured = s.hires.secured := by
  unfold askCommit
  (try dsimp only)
  (try split)
  all_goals (try split)
  all_goals (try split)
  all_goals simp

@[simp] theorem commitFailed_frame (f : Flight) (l : FailedArea) (s : State) :
    (commitFailed f l s).inputs = s.inputs ∧
    (commitFailed f l s).duty = s.duty ∧
    (commitFailed f l s).starts = s.starts ∧
    (commitFailed f l s).table = s.table ∧
    (commitFailed f l s).hires = s.hires ∧
    (commitFailed f l s).config = s.config ∧
    (commitFailed f l s).clock = s.clock ∧
    (commitFailed f l s).freePicks = s.freePicks ∧
    (commitFailed f l s).pending = s.pending ∧
    (commitFailed f l s).link.baudselHigh = s.link.baudselHigh ∧
    (commitFailed f l s).link.rx = s.link.rx ∧
    (commitFailed f l s).link.queue = s.link.queue ∧
    (commitFailed f l s).link.deferred = s.link.deferred ∧
    (commitFailed f l s).link.ready = s.link.ready ∧
    (commitFailed f l s).link.taken = s.link.taken ∧
    (commitFailed f l s).link.restartTaken = s.link.restartTaken ∧
    (commitFailed f l s).link.stream = s.link.stream ∧
    (commitFailed f l s).link.report = s.link.report ∧
    (commitFailed f l s).link.tx = s.link.tx ∧
    (commitFailed f l s).store.lastArea = s.store.lastArea ∧
    (commitFailed f l s).store.lastSequence = s.store.lastSequence ∧
    (commitFailed f l s).store.lastStart = s.store.lastStart ∧
    (commitFailed f l s).store.commit = s.store.commit := ⟨rfl, rfl, rfl, rfl, rfl, rfl, rfl, rfl, rfl, rfl, rfl, rfl, rfl, rfl, rfl, rfl, rfl, rfl, rfl, rfl, rfl, rfl, rfl⟩

@[simp] theorem completeCommit_frame (f : Flight) (p : Bool) (r : CommitResult) (s : State) :
    (completeCommit f p r s).starts = s.starts ∧
    (completeCommit f p r s).config = s.config ∧
    (completeCommit f p r s).freePicks = s.freePicks ∧
    (completeCommit f p r s).pending = s.pending ∧
    (completeCommit f p r s).hires.current = s.hires.current ∧
    (completeCommit f p r s).hires.idle = s.hires.idle ∧
    (completeCommit f p r s).hires.settled = s.hires.settled ∧
    (completeCommit f p r s).hires.history = s.hires.history ∧
    (completeCommit f p r s).hires.released = s.hires.released ∧
    (completeCommit f p r s).hires.next = s.hires.next ∧
    (completeCommit f p r s).inputs.outRemainder = s.inputs.outRemainder ∧
    (completeCommit f p r s).inputs.outPending = s.inputs.outPending ∧
    (completeCommit f p r s).inputs.captureUs = s.inputs.captureUs ∧
    (completeCommit f p r s).inputs.tickUs = s.inputs.tickUs ∧
    (completeCommit f p r s).inputs.vbat = s.inputs.vbat ∧
    (completeCommit f p r s).inputs.supply = s.inputs.supply ∧
    (completeCommit f p r s).inputs.ign.level = s.inputs.ign.level ∧
    (completeCommit f p r s).inputs.crk.level = s.inputs.crk.level ∧
    (completeCommit f p r s).inputs.clu.level = s.inputs.clu.level ∧
    (completeCommit f p r s).inputs.rvs.level = s.inputs.rvs.level ∧
    (completeCommit f p r s).duty.meters = s.duty.meters ∧
    (completeCommit f p r s).duty.engine = s.duty.engine ∧
    (completeCommit f p r s).duty.clutch = s.duty.clutch ∧
    (completeCommit f p r s).duty.confirmTimer = s.duty.confirmTimer ∧
    (completeCommit f p r s).duty.lockTimer = s.duty.lockTimer ∧
    (completeCommit f p r s).duty.coolant = s.duty.coolant ∧
    (completeCommit f p r s).duty.fresh = s.duty.fresh ∧
    (completeCommit f p r s).duty.freshTimer = s.duty.freshTimer ∧
    (completeCommit f p r s).duty.load = s.duty.load ∧
    (completeCommit f p r s).table.slots = s.table.slots ∧
    (completeCommit f p r s).clock.time = s.clock.time ∧
    (completeCommit f p r s).clock.phase = s.clock.phase ∧
    (completeCommit f p r s).clock.supplyOn = s.clock.supplyOn ∧
    (completeCommit f p r s).clock.resetnHigh = s.clock.resetnHigh ∧
    (completeCommit f p r s).clock.outcome = s.clock.outcome ∧
    (completeCommit f p r s).link.baudselHigh = s.link.baudselHigh ∧
    (completeCommit f p r s).link.queue = s.link.queue ∧
    (completeCommit f p r s).link.restartTaken = s.link.restartTaken := by
  unfold completeCommit
  cases r <;> (dsimp only; split <;> simp)

@[simp] theorem takeCompletion_frame (r : CommitResult) (s : State) :
    (takeCompletion r s).starts = s.starts ∧
    (takeCompletion r s).config = s.config ∧
    (takeCompletion r s).freePicks = s.freePicks ∧
    (takeCompletion r s).pending = s.pending ∧
    (takeCompletion r s).hires.current = s.hires.current ∧
    (takeCompletion r s).hires.idle = s.hires.idle ∧
    (takeCompletion r s).hires.settled = s.hires.settled ∧
    (takeCompletion r s).hires.history = s.hires.history ∧
    (takeCompletion r s).hires.released = s.hires.released ∧
    (takeCompletion r s).hires.next = s.hires.next ∧
    (takeCompletion r s).inputs.outRemainder = s.inputs.outRemainder ∧
    (takeCompletion r s).inputs.outPending = s.inputs.outPending ∧
    (takeCompletion r s).inputs.captureUs = s.inputs.captureUs ∧
    (takeCompletion r s).inputs.tickUs = s.inputs.tickUs ∧
    (takeCompletion r s).inputs.vbat = s.inputs.vbat ∧
    (takeCompletion r s).inputs.supply = s.inputs.supply ∧
    (takeCompletion r s).inputs.ign.level = s.inputs.ign.level ∧
    (takeCompletion r s).inputs.crk.level = s.inputs.crk.level ∧
    (takeCompletion r s).inputs.clu.level = s.inputs.clu.level ∧
    (takeCompletion r s).inputs.rvs.level = s.inputs.rvs.level ∧
    (takeCompletion r s).duty.meters = s.duty.meters ∧
    (takeCompletion r s).duty.engine = s.duty.engine ∧
    (takeCompletion r s).duty.clutch = s.duty.clutch ∧
    (takeCompletion r s).duty.confirmTimer = s.duty.confirmTimer ∧
    (takeCompletion r s).duty.lockTimer = s.duty.lockTimer ∧
    (takeCompletion r s).duty.coolant = s.duty.coolant ∧
    (takeCompletion r s).duty.fresh = s.duty.fresh ∧
    (takeCompletion r s).duty.freshTimer = s.duty.freshTimer ∧
    (takeCompletion r s).duty.load = s.duty.load ∧
    (takeCompletion r s).table.slots = s.table.slots ∧
    (takeCompletion r s).clock.time = s.clock.time ∧
    (takeCompletion r s).clock.phase = s.clock.phase ∧
    (takeCompletion r s).clock.supplyOn = s.clock.supplyOn ∧
    (takeCompletion r s).clock.resetnHigh = s.clock.resetnHigh ∧
    (takeCompletion r s).clock.outcome = s.clock.outcome ∧
    (takeCompletion r s).link.baudselHigh = s.link.baudselHigh ∧
    (takeCompletion r s).link.queue = s.link.queue ∧
    (takeCompletion r s).link.restartTaken = s.link.restartTaken := by
  unfold takeCompletion
  (try dsimp only)
  (try split)
  all_goals (try split)
  all_goals (try split)
  all_goals simp

@[simp] theorem takeCheckpointTest_frame (s : State) :
    (takeCheckpointTest s).starts = s.starts ∧
    (takeCheckpointTest s).config = s.config ∧
    (takeCheckpointTest s).freePicks = s.freePicks ∧
    (takeCheckpointTest s).pending = s.pending ∧
    (takeCheckpointTest s).hires.current = s.hires.current ∧
    (takeCheckpointTest s).hires.idle = s.hires.idle ∧
    (takeCheckpointTest s).hires.settled = s.hires.settled ∧
    (takeCheckpointTest s).hires.history = s.hires.history ∧
    (takeCheckpointTest s).hires.released = s.hires.released ∧
    (takeCheckpointTest s).hires.next = s.hires.next ∧
    (takeCheckpointTest s).inputs.outRemainder = s.inputs.outRemainder ∧
    (takeCheckpointTest s).inputs.outPending = s.inputs.outPending ∧
    (takeCheckpointTest s).inputs.captureUs = s.inputs.captureUs ∧
    (takeCheckpointTest s).inputs.tickUs = s.inputs.tickUs ∧
    (takeCheckpointTest s).inputs.vbat = s.inputs.vbat ∧
    (takeCheckpointTest s).inputs.supply = s.inputs.supply ∧
    (takeCheckpointTest s).inputs.ign.level = s.inputs.ign.level ∧
    (takeCheckpointTest s).inputs.crk.level = s.inputs.crk.level ∧
    (takeCheckpointTest s).inputs.clu.level = s.inputs.clu.level ∧
    (takeCheckpointTest s).inputs.rvs.level = s.inputs.rvs.level ∧
    (takeCheckpointTest s).duty.meters = s.duty.meters ∧
    (takeCheckpointTest s).duty.engine = s.duty.engine ∧
    (takeCheckpointTest s).duty.clutch = s.duty.clutch ∧
    (takeCheckpointTest s).duty.confirmTimer = s.duty.confirmTimer ∧
    (takeCheckpointTest s).duty.lockTimer = s.duty.lockTimer ∧
    (takeCheckpointTest s).duty.coolant = s.duty.coolant ∧
    (takeCheckpointTest s).duty.fresh = s.duty.fresh ∧
    (takeCheckpointTest s).duty.freshTimer = s.duty.freshTimer ∧
    (takeCheckpointTest s).duty.load = s.duty.load ∧
    (takeCheckpointTest s).table.slots = s.table.slots ∧
    (takeCheckpointTest s).clock.time = s.clock.time ∧
    (takeCheckpointTest s).clock.phase = s.clock.phase ∧
    (takeCheckpointTest s).clock.supplyOn = s.clock.supplyOn ∧
    (takeCheckpointTest s).clock.resetnHigh = s.clock.resetnHigh ∧
    (takeCheckpointTest s).clock.outcome = s.clock.outcome ∧
    (takeCheckpointTest s).link.baudselHigh = s.link.baudselHigh ∧
    (takeCheckpointTest s).link.queue = s.link.queue ∧
    (takeCheckpointTest s).link.restartTaken = s.link.restartTaken ∧
    (takeCheckpointTest s).link.flags = s.link.flags ∧
    (takeCheckpointTest s).store.areas = s.store.areas ∧
    (takeCheckpointTest s).store.usable = s.store.usable ∧
    (takeCheckpointTest s).store.faultSeen = s.store.faultSeen ∧
    (takeCheckpointTest s).hires.secured = s.hires.secured := by
  unfold takeCheckpointTest
  repeat' split
  all_goals simp

@[simp] theorem takeDozeExpiry_frame (s : State) :
    (takeDozeExpiry s).starts = s.starts ∧
    (takeDozeExpiry s).config = s.config ∧
    (takeDozeExpiry s).freePicks = s.freePicks ∧
    (takeDozeExpiry s).pending = s.pending ∧
    (takeDozeExpiry s).hires.current = s.hires.current ∧
    (takeDozeExpiry s).hires.idle = s.hires.idle ∧
    (takeDozeExpiry s).hires.settled = s.hires.settled ∧
    (takeDozeExpiry s).hires.history = s.hires.history ∧
    (takeDozeExpiry s).hires.released = s.hires.released ∧
    (takeDozeExpiry s).hires.next = s.hires.next ∧
    (takeDozeExpiry s).inputs.outRemainder = s.inputs.outRemainder ∧
    (takeDozeExpiry s).inputs.outPending = s.inputs.outPending ∧
    (takeDozeExpiry s).inputs.captureUs = s.inputs.captureUs ∧
    (takeDozeExpiry s).inputs.tickUs = s.inputs.tickUs ∧
    (takeDozeExpiry s).inputs.vbat = s.inputs.vbat ∧
    (takeDozeExpiry s).inputs.supply = s.inputs.supply ∧
    (takeDozeExpiry s).inputs.ign.level = s.inputs.ign.level ∧
    (takeDozeExpiry s).inputs.crk.level = s.inputs.crk.level ∧
    (takeDozeExpiry s).inputs.clu.level = s.inputs.clu.level ∧
    (takeDozeExpiry s).inputs.rvs.level = s.inputs.rvs.level ∧
    (takeDozeExpiry s).duty.meters = s.duty.meters ∧
    (takeDozeExpiry s).duty.engine = s.duty.engine ∧
    (takeDozeExpiry s).duty.clutch = s.duty.clutch ∧
    (takeDozeExpiry s).duty.confirmTimer = s.duty.confirmTimer ∧
    (takeDozeExpiry s).duty.lockTimer = s.duty.lockTimer ∧
    (takeDozeExpiry s).duty.coolant = s.duty.coolant ∧
    (takeDozeExpiry s).duty.fresh = s.duty.fresh ∧
    (takeDozeExpiry s).duty.freshTimer = s.duty.freshTimer ∧
    (takeDozeExpiry s).duty.load = s.duty.load ∧
    (takeDozeExpiry s).table.slots = s.table.slots ∧
    (takeDozeExpiry s).clock.time = s.clock.time ∧
    (takeDozeExpiry s).clock.phase = s.clock.phase ∧
    (takeDozeExpiry s).clock.supplyOn = s.clock.supplyOn ∧
    (takeDozeExpiry s).clock.resetnHigh = s.clock.resetnHigh ∧
    (takeDozeExpiry s).clock.outcome = s.clock.outcome ∧
    (takeDozeExpiry s).link.baudselHigh = s.link.baudselHigh ∧
    (takeDozeExpiry s).link.queue = s.link.queue ∧
    (takeDozeExpiry s).link.restartTaken = s.link.restartTaken ∧
    (takeDozeExpiry s).link.flags = s.link.flags ∧
    (takeDozeExpiry s).store.areas = s.store.areas ∧
    (takeDozeExpiry s).store.usable = s.store.usable ∧
    (takeDozeExpiry s).store.faultSeen = s.store.faultSeen ∧
    (takeDozeExpiry s).hires.secured = s.hires.secured := by
  unfold takeDozeExpiry
  repeat' split
  all_goals simp

@[simp] theorem instantOver_frame (s : State) :
    (instantOver s).inputs = s.inputs ∧
    (instantOver s).duty = s.duty ∧
    (instantOver s).starts = s.starts ∧
    (instantOver s).table = s.table ∧
    (instantOver s).hires = s.hires ∧
    (instantOver s).config = s.config ∧
    (instantOver s).store = s.store ∧
    (instantOver s).link = s.link ∧
    (instantOver s).freePicks = s.freePicks ∧
    (instantOver s).pending = s.pending ∧
    (instantOver s).clock.time = s.clock.time ∧
    (instantOver s).clock.power = s.clock.power ∧
    (instantOver s).clock.phase = s.clock.phase ∧
    (instantOver s).clock.hold = s.clock.hold ∧
    (instantOver s).clock.tallyDue = s.clock.tallyDue ∧
    (instantOver s).clock.secondStep = s.clock.secondStep ∧
    (instantOver s).clock.waking = s.clock.waking ∧
    (instantOver s).clock.supplyOn = s.clock.supplyOn ∧
    (instantOver s).clock.resetnHigh = s.clock.resetnHigh ∧
    (instantOver s).clock.outcome = s.clock.outcome ∧
    (instantOver s).clock.lampCheck = s.clock.lampCheck ∧
    (instantOver s).clock.doze = s.clock.doze ∧
    (instantOver s).clock.dozeDue = s.clock.dozeDue := ⟨rfl, rfl, rfl, rfl, rfl, rfl, rfl, rfl, rfl, rfl, rfl, rfl, rfl, rfl, rfl, rfl, rfl, rfl, rfl, rfl, rfl, rfl, rfl⟩

@[simp] theorem dozeEdge_frame (s : State) :
    (dozeEdge s).inputs = s.inputs ∧
    (dozeEdge s).duty = s.duty ∧
    (dozeEdge s).starts = s.starts ∧
    (dozeEdge s).table = s.table ∧
    (dozeEdge s).hires = s.hires ∧
    (dozeEdge s).config = s.config ∧
    (dozeEdge s).store = s.store ∧
    (dozeEdge s).freePicks = s.freePicks ∧
    (dozeEdge s).pending = s.pending ∧
    (dozeEdge s).clock.time = s.clock.time ∧
    (dozeEdge s).clock.power = s.clock.power ∧
    (dozeEdge s).clock.phase = s.clock.phase ∧
    (dozeEdge s).clock.hold = s.clock.hold ∧
    (dozeEdge s).clock.tallyDue = s.clock.tallyDue ∧
    (dozeEdge s).clock.secondStep = s.clock.secondStep ∧
    (dozeEdge s).clock.waking = s.clock.waking ∧
    (dozeEdge s).clock.supplyOn = s.clock.supplyOn ∧
    (dozeEdge s).clock.resetnHigh = s.clock.resetnHigh ∧
    (dozeEdge s).clock.outcome = s.clock.outcome ∧
    (dozeEdge s).clock.lampCheck = s.clock.lampCheck ∧
    (dozeEdge s).link.baudselHigh = s.link.baudselHigh ∧
    (dozeEdge s).link.rx = s.link.rx ∧
    (dozeEdge s).link.queue = s.link.queue ∧
    (dozeEdge s).link.restartTaken = s.link.restartTaken ∧
    (dozeEdge s).link.flags = s.link.flags ∧
    (dozeEdge s).link.stream = s.link.stream ∧
    (dozeEdge s).link.report = s.link.report := by
  unfold dozeEdge
  repeat' split
  all_goals simp

@[simp] theorem watchPin_frame (l : SwitchLine) (b : Bool) (s : State) :
    (watchPin l b s).duty = s.duty ∧
    (watchPin l b s).starts = s.starts ∧
    (watchPin l b s).table = s.table ∧
    (watchPin l b s).hires = s.hires ∧
    (watchPin l b s).config = s.config ∧
    (watchPin l b s).store = s.store ∧
    (watchPin l b s).link = s.link ∧
    (watchPin l b s).freePicks = s.freePicks ∧
    (watchPin l b s).pending = s.pending ∧
    (watchPin l b s).inputs.outRemainder = s.inputs.outRemainder ∧
    (watchPin l b s).inputs.outPending = s.inputs.outPending ∧
    (watchPin l b s).inputs.captureUs = s.inputs.captureUs ∧
    (watchPin l b s).inputs.tickUs = s.inputs.tickUs ∧
    (watchPin l b s).inputs.vbat = s.inputs.vbat ∧
    (watchPin l b s).inputs.supply = s.inputs.supply ∧
    (watchPin l b s).inputs.ign.level = s.inputs.ign.level ∧
    (watchPin l b s).inputs.crk.level = s.inputs.crk.level ∧
    (watchPin l b s).inputs.clu.level = s.inputs.clu.level ∧
    (watchPin l b s).inputs.rvs.level = s.inputs.rvs.level ∧
    (watchPin l b s).inputs.eng = s.inputs.eng ∧
    (watchPin l b s).inputs.inp = s.inputs.inp ∧
    (watchPin l b s).inputs.out = s.inputs.out ∧
    (watchPin l b s).clock.time = s.clock.time ∧
    (watchPin l b s).clock.power = s.clock.power ∧
    (watchPin l b s).clock.phase = s.clock.phase ∧
    (watchPin l b s).clock.hold = s.clock.hold ∧
    (watchPin l b s).clock.sleep = s.clock.sleep ∧
    (watchPin l b s).clock.tallyDue = s.clock.tallyDue ∧
    (watchPin l b s).clock.secondStep = s.clock.secondStep ∧
    (watchPin l b s).clock.supplyOn = s.clock.supplyOn ∧
    (watchPin l b s).clock.resetnHigh = s.clock.resetnHigh ∧
    (watchPin l b s).clock.outcome = s.clock.outcome ∧
    (watchPin l b s).clock.lampCheck = s.clock.lampCheck ∧
    (watchPin l b s).clock.doze = s.clock.doze ∧
    (watchPin l b s).clock.dozeDue = s.clock.dozeDue := by
  cases l <;> simp [watchPin, Inputs.setLine, Inputs.line]

@[simp] theorem receiveAsleep_frame (items : List RxItem) (s : State) :
    (receiveAsleep items s).inputs = s.inputs ∧
    (receiveAsleep items s).duty = s.duty ∧
    (receiveAsleep items s).starts = s.starts ∧
    (receiveAsleep items s).table = s.table ∧
    (receiveAsleep items s).hires = s.hires ∧
    (receiveAsleep items s).config = s.config ∧
    (receiveAsleep items s).store = s.store ∧
    (receiveAsleep items s).link = s.link ∧
    (receiveAsleep items s).freePicks = s.freePicks ∧
    (receiveAsleep items s).pending = s.pending ∧
    (receiveAsleep items s).clock.time = s.clock.time ∧
    (receiveAsleep items s).clock.power = s.clock.power ∧
    (receiveAsleep items s).clock.phase = s.clock.phase ∧
    (receiveAsleep items s).clock.hold = s.clock.hold ∧
    (receiveAsleep items s).clock.sleep = s.clock.sleep ∧
    (receiveAsleep items s).clock.tallyDue = s.clock.tallyDue ∧
    (receiveAsleep items s).clock.secondStep = s.clock.secondStep ∧
    (receiveAsleep items s).clock.supplyOn = s.clock.supplyOn ∧
    (receiveAsleep items s).clock.resetnHigh = s.clock.resetnHigh ∧
    (receiveAsleep items s).clock.outcome = s.clock.outcome ∧
    (receiveAsleep items s).clock.lampCheck = s.clock.lampCheck ∧
    (receiveAsleep items s).clock.doze = s.clock.doze ∧
    (receiveAsleep items s).clock.dozeDue = s.clock.dozeDue := ⟨rfl, rfl, rfl, rfl, rfl, rfl, rfl, rfl, rfl, rfl, rfl, rfl, rfl, rfl, rfl, rfl, rfl, rfl, rfl, rfl, rfl, rfl, rfl⟩

/-- What the arbiter's choice among ready replies is: one of them, and none goes before it (R184). -/
theorem firstReply_some {l : List Reply} {r : Reply} (h : firstReply l = some r) :
    r ∈ l ∧ ∀ q ∈ l, r.readyAt < q.readyAt ∨ r.readyAt = q.readyAt ∧ r.order ≤ q.order := by
  induction l generalizing r with
  | nil => cases h
  | cons a rest ih =>
    simp only [firstReply] at h
    cases h1 : firstReply rest with
    | none =>
      cases rest with
      | nil => cases h; simp
      | cons b c => simp only [firstReply] at h1; split at h1 <;> [cases h1; (split at h1 <;> cases h1)]
    | some q =>
      rw [h1] at h
      have hq := ih h1
      by_cases hb : q.before a = true <;> simp only [hb, if_true, if_false, Bool.false_eq_true] at h <;> cases h <;>
        simp only [Reply.before, decide_eq_true_eq] at hb
      · exact ⟨List.mem_cons_of_mem _ hq.1, List.forall_mem_cons.2 ⟨by omega, hq.2⟩⟩
      · exact ⟨List.mem_cons_self, List.forall_mem_cons.2 ⟨by omega, fun x hx => by have := hq.2 x hx; omega⟩⟩

@[simp] theorem firstReply_eq_none {l : List Reply} : firstReply l = none ↔ l = [] := by
  cases l with
  | nil => simp [firstReply]
  | cons a rest => simp only [firstReply]; split <;> [simp; (split <;> simp)]

/-- Catching up is what the command of the event does (log 10). -/
theorem whenDue_catchUp (due : State → Bool) (take : State → State) (s : State) :
    whenDue (due s) take s = .next (catchUp due take s) := by
  unfold whenDue catchUp settled
  split <;> rfl

@[simp] theorem arbitrate_frame (s : State) :
    (arbitrate s).inputs = s.inputs ∧ (arbitrate s).duty = s.duty ∧ (arbitrate s).starts = s.starts ∧
    (arbitrate s).table = s.table ∧ (arbitrate s).hires = s.hires ∧ (arbitrate s).config = s.config ∧
    (arbitrate s).clock = s.clock ∧ (arbitrate s).store = s.store ∧ (arbitrate s).freePicks = s.freePicks ∧
    (arbitrate s).pending = s.pending := by
  unfold arbitrate
  split <;> simp

end Sys2Proof.Machine
end

