-- ==== Sys2Proof/Laws/Accounts.lean ====
section
/-! SUPPORT. The accounts of the part as one view of a state and of an image, the few ways in which commands change them,
and the theorem that a law kept by each of those ways is kept by every command, in the working state and in every
image. -/

namespace Sys2Proof.Machine

open Sys2Proof Sys2Proof.Safety

/-- The accounts: the slot meters, the Hire Unit with its secured mark left out (set to 0), the start log, and whether
the mode is SETUP. -/
structure Accounts where
  slots : Eight SlotMeters
  hires : Hires
  log : List StartEntry
  setup : Bool

/-- The accounts of the working state. -/
def State.accounts (s : State) : Accounts :=
  ⟨s.table.slots, { s.hires with secured := 0 }, s.starts.log, s.inSetup⟩

/-- The accounts of an image. -/
def Image.accounts (i : Image) : Accounts :=
  ⟨i.slots, ⟨i.openHire, i.idle, i.settled, i.history, i.released, i.nextHire, 0⟩, i.startLog, false⟩

/-- A snapshot holds the accounts as they stand, and no SETUP. -/
theorem snapshot_accounts (s : State) (n : Nat) :
    (s.snapshot n).accounts = { s.accounts with setup := false } := rfl

/-- The accounts of a blank start. -/
def Accounts.blank : Accounts :=
  ⟨Eight.all blankSlot, ⟨none, zeroAccounts, zeroAccounts, [], 0, 1, 0⟩, [], false⟩

/-- A history with a summary appended, a pair merged first when it is full (R125). -/
def appended (h : List Summary) (m : Summary) : List Summary :=
  if h.length < historyMax then h ++ [m]
  else
    match mergeAt (pairToMerge h) h with
    | some r => r.2 ++ [m]
    | none => h ++ [m]

/-- The Hire Unit after the close of the open hire (R111). -/
def Hires.closed (h : Hires) (cause : CloseCause) (t : MeterTime) : Hires :=
  match h.current with
  | none => h
  | some r => { h with history := appended h.history (summaryOf r cause t), current := none }

/-- The Hire Unit with a record opened (R106). -/
def Hires.opened (h : Hires) (r : HireRecord) : Hires := { h with current := some r, next := nextNumber h.next }

/-- The Hire Unit with the open record changed. -/
def Hires.onCurrent (h : Hires) (f : HireRecord → HireRecord) : Hires := { h with current := h.current.map f }

/-- Meters whose total, residue and FROZEN mark stand. -/
def SameCharge (a b : Eight SlotMeters) : Prop :=
  ∀ k, (b.get k).total = (a.get k).total ∧ (b.get k).residue = (a.get k).residue ∧ (b.get k).frozen = (a.get k).frozen

/-- A law of the accounts that each way of changing them keeps. -/
structure AccountLaw (A : Accounts → Prop) : Prop where
  blank : A Accounts.blank
  excludes : ∀ a : Accounts, A a → a.setup = true → a.hires.current = none
  leave : ∀ a : Accounts, A a → A { a with setup := false }
  enter : ∀ a : Accounts, A a → a.hires.current = none → A { a with setup := true }
  charge : ∀ a : Accounts, A a → ∀ cs raws,
    A { a with slots := chargeAll cs raws a.slots, hires := creditTarget (deliveredAll raws a.slots) a.hires }
  count : ∀ a : Accounts, A a → ∀ f : HireCounters → HireCounters,
    A { a with hires := a.hires.onCurrent fun h => { h with counters := f h.counters } }
  logged : ∀ a : Accounts, A a → ∀ e, A { a with log := (e :: a.log).take 32 }
  marked : ∀ a : Accounts, A a → ∀ slots, SameCharge a.slots slots → A { a with slots := slots }
  close : ∀ a : Accounts, A a → ∀ cause t, A { a with hires := a.hires.closed cause t }
  openHire : ∀ a : Accounts, A a → ∀ r : HireRecord, a.hires.current = none → a.setup = false →
    a.hires.next < exhausted → r.number = a.hires.next → r.main = zeroAccounts → r.recovery = none →
    A { a with hires := a.hires.opened r }
  suspend : ∀ a : Accounts, A a → ∀ b : Bool,
    A { a with hires := a.hires.onCurrent fun h =>
      { h with suspended := b, recovery := if b then some (h.recovery.getD zeroAccounts) else h.recovery } }
  release : ∀ a : Accounts, A a → ∀ n, A { a with hires := releaseThrough n a.hires }
  pool : ∀ a : Accounts, A a → A { a with hires := releasePool a.hires }
  clear : ∀ a : Accounts, A a → a.hires.current = none →
    A { a with slots := Eight.all blankSlot, hires := clearHires a.hires, log := [] }

/-- A law of the accounts holds in the working state and in every image. -/
def Kept (A : Accounts → Prop) (s : State) : Prop := A s.accounts ∧ ∀ i ∈ imagesOf s, A i.accounts

/-- What leaves the accounts and the images as they are keeps every law of them. -/
theorem Kept.frame {A : Accounts → Prop} {s t : State} (ha : t.accounts = s.accounts)
    (hi : t.store.areas = s.store.areas) (hc : t.store.commit = s.store.commit) (h : Kept A s) : Kept A t := by
  obtain ⟨h1, h2⟩ := h
  refine ⟨ha ▸ h1, ?_⟩
  simpa [imagesOf, hi, hc] using h2

/-- What changes the accounts alone, and keeps the law of them. -/
theorem Kept.change {A : Accounts → Prop} {s t : State} (h : Kept A s) (hi : t.store = s.store)
    (ha : A s.accounts → A t.accounts) : Kept A t :=
  ⟨ha h.1, by simpa [imagesOf, hi] using h.2⟩

variable {A : Accounts → Prop}

/-! ## The Retention Store -/

theorem kept_beginCommit (L : AccountLaw A) {s : State} (h : Kept A s) : Kept A (beginCommit s) := by
  obtain ⟨h1, h2⟩ := h
  have ha : (beginCommit s).accounts = s.accounts := by simp [State.accounts, State.inSetup]
  refine ⟨ha ▸ h1, ?_⟩
  intro i hi
  unfold beginCommit at hi
  dsimp only at hi
  split at hi
  · simp only [imagesOf, flightImages, List.mem_append, List.mem_singleton] at hi
    rcases hi with hi | rfl
    · exact h2 i (by simp only [imagesOf, List.mem_append]; exact .inl hi)
    · rw [snapshot_accounts]; exact L.leave _ h1
  · simp only [imagesOf, sleepTest_frame, completionReaches_frame, flightImages, List.append_nil] at hi
    exact h2 i (by simp only [imagesOf, List.mem_append]; exact .inl hi)

theorem kept_askCommit (L : AccountLaw A) {s : State} (h : Kept A s) : Kept A (askCommit s) := by
  unfold askCommit
  split
  · exact kept_beginCommit L h
  · rename_i f hf
    refine ⟨h.1, ?_⟩
    simpa [imagesOf, flightImages, hf] using h.2
  · exact h

/-- A snapshot carries its check word: it is a valid image, whatever the layout of its bytes. -/
@[simp] theorem snapshot_valid (s : State) (n : Nat) : (s.snapshot n).valid = true := by
  simp [State.snapshot, Image.valid, ImageFields.sealed]

/-- An image counts when an area holds it and its check word is the one computed. -/
theorem mem_validImages {areas : Four AreaContents} {p : Area × Image} :
    p ∈ validImages areas ↔ areas.get p.1 = .image p.2 ∧ p.2.valid = true := by
  obtain ⟨a, i⟩ := p
  simp only [validImages, List.mem_filterMap]
  constructor
  · rintro ⟨b, _, hb⟩
    split at hb
    · cases hb
    · rename_i j hj
      split at hb
      · rename_i hv
        simp only [Option.some.injEq, Prod.mk.injEq] at hb
        obtain ⟨rfl, rfl⟩ := hb
        exact ⟨hj, hv⟩
      · cases hb
  · intro h
    refine ⟨a, ?_, by simp [h.1, h.2]⟩
    match a with
    | 0 | 1 | 2 | 3 => decide

theorem validImages_set {areas : Four AreaContents} {a : Area} {c : AreaContents} {p : Area × Image}
    (h : p ∈ validImages (areas.set a c)) : p ∈ validImages areas ∨ c = .image p.2 := by
  rw [mem_validImages] at h
  simp only [Four.get_set] at h
  split at h
  · exact .inr h.1
  · exact .inl (mem_validImages.2 h)

/-- The images after the contents of one area have changed: those before, or the new one. -/
theorem images_set {A : Accounts → Prop} {areas : Four AreaContents} {a : Area} {c : AreaContents}
    (h : ∀ p ∈ validImages areas, A p.2.accounts) (hc : ∀ i, c = .image i → A i.accounts) :
    ∀ p ∈ validImages (areas.set a c), A p.2.accounts := by
  intro p hp
  rcases validImages_set hp with hp | hp
  · exact h p hp
  · exact hc _ hp

theorem kept_completeCommit (L : AccountLaw A) {s : State} (f : Flight) (p : Bool) (r : CommitResult)
    (hf : A f.image.accounts) (h1 : A s.accounts) (h2 : ∀ q ∈ validImages s.store.areas, A q.2.accounts) :
    Kept A (completeCommit f p r s) := by
  have key : ∀ t : State, t.accounts = s.accounts → (∀ q ∈ validImages t.store.areas, A q.2.accounts) →
      t.store.commit = .idle → ∀ b : Bool, Kept A (sleepTest (if b then beginCommit (bindNext t) else t)) := by
    intro t ha hv hc b
    have kt : Kept A t := ⟨ha ▸ h1, by
      intro i hi
      simp only [imagesOf, hc, flightImages, List.append_nil, List.mem_map] at hi
      obtain ⟨q, hq, rfl⟩ := hi
      exact hv q hq⟩
    refine Kept.frame (s := if b then beginCommit (bindNext t) else t) (by simp [State.accounts, State.inSetup])
      (by simp) (by simp) ?_
    cases b
    · exact kt
    · exact kept_beginCommit L (Kept.frame (by simp [State.accounts, State.inSetup]) (by simp) (by simp) kt)
  unfold completeCommit
  cases r with
  | verified =>
    dsimp only
    refine key _ (by simp [State.accounts, State.inSetup]) ?_ (by simp) _
    simp only [completionReaches_frame]
    refine images_set h2 ?_
    intro i hi
    cases hi
    exact hf
  | failed left =>
    dsimp only
    refine key _ (by simp [State.accounts, State.inSetup]) ?_ (by simp) _
    simp only [completionReaches_frame]
    cases left with
    | noValidImage => exact images_set h2 (by intro i hi; cases hi)
    | imageBefore => exact h2

theorem kept_takeCompletion (L : AccountLaw A) {s : State} (r : CommitResult) (h : Kept A s) :
    Kept A (takeCompletion r s) := by
  have hv : ∀ q ∈ validImages s.store.areas, A q.2.accounts := fun q hq =>
    h.2 q.2 (by simp only [imagesOf, List.mem_append, List.mem_map]; exact .inl ⟨q, hq, rfl⟩)
  unfold takeCompletion
  split
  · exact h
  · rename_i f hf
    exact kept_completeCommit L f _ r (h.2 _ (by simp [imagesOf, hf, flightImages])) h.1 hv
  · rename_i f hf
    exact kept_completeCommit L f _ r (h.2 _ (by simp [imagesOf, hf, flightImages])) h.1 hv

theorem kept_stopped (L : AccountLaw A) {s : State} (p : Power) (h : Kept A s) : Kept A (stopped p s) := by
  refine ⟨L.blank, ?_⟩
  have hv : ∀ q ∈ validImages s.store.areas, A q.2.accounts := fun q hq =>
    h.2 q.2 (by simp only [imagesOf, List.mem_append, List.mem_map]; exact .inl ⟨q, hq, rfl⟩)
  have : ∀ q ∈ validImages s.store.areasAtStop, A q.2.accounts := by
    unfold Store.areasAtStop
    split
    · exact hv
    · exact images_set hv (by intro i hi; cases hi)
    · exact images_set hv (by intro i hi; cases hi)
  intro i hi
  simp only [stopped, imagesOf, State.reset, flightImages, List.append_nil, List.mem_map] at hi
  obtain ⟨q, hq, rfl⟩ := hi
  exact this q hq

theorem newestImage_mem {areas : Four AreaContents} {p : Area × Image} (h : newestImage areas = some p) :
    p ∈ validImages areas := by
  unfold newestImage at h
  dsimp only at h
  split at h
  · rename_i x hx
    cases h
    exact List.mem_of_find?_eq_some hx
  · exact List.mem_of_mem_head? (by simpa using h)

theorem kept_endRestore (L : AccountLaw A) {s : State} (b : Bool) (h : Kept A s) :
    Kept A (endRestore b s) := by
  have hs := kept_stopped L .settle h
  unfold endRestore
  dsimp only
  split
  · rename_i a i hi
    have hi' : A i.accounts :=
      h.2 i (by
        simp only [imagesOf, List.mem_append, List.mem_map]
        exact .inl ⟨(a, i), newestImage_mem hi, rfl⟩)
    refine ⟨hi', ?_⟩
    intro j hj
    apply hs.2
    simp only [imagesOf, restoreImage, flightImages, List.append_nil] at hj
    simp only [imagesOf, List.mem_append]
    exact .inl hj
  · exact hs

end Sys2Proof.Machine
end

