-- ==== Sys2Proof/Laws/Kept.lean ====
section
/-! SUPPORT. A law of the accounts is kept by each shared operation, and so by every command. -/

namespace Sys2Proof.Machine

set_option Elab.async false

open Sys2Proof Sys2Proof.Safety

variable {A : Accounts → Prop}

/-- An operation that leaves the accounts and the images as they are. -/
theorem Kept.same {s t : State} (h : Kept A s) (ha : t.accounts = s.accounts := by simp [State.accounts, State.inSetup])
    (hi : t.store.areas = s.store.areas := by simp) (hc : t.store.commit = s.store.commit := by simp) : Kept A t :=
  Kept.frame ha hi hc h

/-- The two attributions of one delivery agree, the secured mark left out. -/
theorem creditTarget_secured (ws : Eight Nat) (h : Hires) (n : Nat) :
    { creditTarget ws h with secured := n } = creditTarget ws { h with secured := n } := by
  unfold creditTarget
  cases h.current with
  | none => rfl
  | some r => by_cases hs : r.suspended <;> simp [hs]

/-! ## What leaves the accounts alone -/

theorem kept_onMeters {s : State} (f : PlainMeters → PlainMeters) (h : Kept A s) : Kept A (onMeters f s) := h.same

theorem kept_clutchToSlipping {s : State} (h : Kept A s) : Kept A (clutchToSlipping s) := h.same

theorem kept_clutchSpeed {s : State} (h : Kept A s) : Kept A (clutchSpeed s) := h.same

theorem kept_takeLockExpiry {s : State} (h : Kept A s) : Kept A (takeLockExpiry s) := h.same

theorem kept_moveEngine {s : State} (e : Engine) (h : Kept A s) : Kept A (moveEngine e s) := h.same

theorem kept_ignitionCut {s : State} (h : Kept A s) : Kept A (ignitionCut s) := h.same

theorem kept_enterReady {s : State} (h : Kept A s) : Kept A (enterReady s) := h.same

theorem kept_startCranking {s : State} (h : Kept A s) : Kept A (startCranking s) := h.same

theorem kept_startPushed {s : State} (h : Kept A s) : Kept A (startPushed s) := h.same

theorem kept_openAttempt {s : State} (k : AttemptKind) (h : Kept A s) : Kept A (openAttempt k s) := h.same

theorem kept_stopCrank {s : State} (h : Kept A s) : Kept A (stopCrank s) := h.same

theorem kept_resumeCrank {s : State} (h : Kept A s) : Kept A (resumeCrank s) := h.same

theorem kept_takeFreshnessExpiry {s : State} (h : Kept A s) : Kept A (takeFreshnessExpiry s) := h.same

theorem kept_takeLampCheckEnd {s : State} (h : Kept A s) : Kept A (takeLampCheckEnd s) := h.same

theorem kept_takeLampBoundary {s : State} (m : LampId) (h : Kept A s) : Kept A (takeLampBoundary m s) := h.same

theorem kept_startLampCheck {s : State} (h : Kept A s) : Kept A (startLampCheck s) := h.same

theorem kept_raise {s : State} (f : Flag) (d : Detail) (h : Kept A s) : Kept A (raise f d s) := h.same

theorem kept_reloadDoze {s : State} (h : Kept A s) : Kept A (reloadDoze s) := h.same

theorem kept_loadDoze {s : State} (h : Kept A s) : Kept A (loadDoze s) := h.same

theorem kept_cancelSleep {s : State} (h : Kept A s) : Kept A (cancelSleep s) := h.same

theorem kept_dozeEdge {s : State} (h : Kept A s) : Kept A (dozeEdge s) := h.same

theorem kept_sleepTest {s : State} (h : Kept A s) : Kept A (sleepTest s) := h.same

theorem kept_drainOut {s : State} (h : Kept A s) : Kept A (drainOut s) := h.same

theorem kept_formLamps {s : State} (h : Kept A s) : Kept A (formLamps s) := h.same

theorem kept_formLampsAfresh {s : State} (h : Kept A s) : Kept A (formLampsAfresh s) := h.same

theorem kept_declare {s : State} (l : LoadState) (c : Option Int) (h : Kept A s) : Kept A (declare l c s) := h.same

theorem kept_decideEngine {s : State} (h : Kept A s) : Kept A (decideEngine s) := h.same

theorem kept_decideClutch {s : State} (h : Kept A s) : Kept A (decideClutch s) := h.same

theorem kept_clearFlagsIn {s : State} (m : Nat) (h : Kept A s) : Kept A (clearFlagsIn m s) := h.same

/-! ## Wear, starts, tracking -/

theorem kept_marksChanged {s : State} (b : Eight SlotMeters) (h : Kept A s) : Kept A (marksChanged b s) := h.same

theorem kept_charge (L : AccountLaw A) {s : State} (raws : Eight (Option Nat)) (h : Kept A s) : Kept A (charge raws s) := by
  unfold charge
  apply kept_marksChanged
  refine Kept.change h rfl fun ha => ?_
  have := L.charge _ ha s.config.armed.slots raws
  simpa [State.accounts, State.inSetup, creditTarget_secured] using this

theorem kept_count (L : AccountLaw A) {s : State} (f : HireCounters → HireCounters) (h : Kept A s) : Kept A (s.count f) :=
  Kept.change h rfl fun ha => L.count _ ha f

theorem kept_countStart (L : AccountLaw A) {s : State} (c : AttemptClass) (h : Kept A s) : Kept A (countStart c s) := by
  unfold countStart
  exact kept_count L _ h.same

theorem kept_logStart (L : AccountLaw A) {s : State} (a : Attempt) (c : AttemptClass) (h : Kept A s) :
    Kept A (logStart a c s) := by
  unfold logStart
  split
  · exact h
  · refine Kept.change h rfl fun ha => ?_
    exact L.logged _ ha (startEntry a c s.starts.next)

theorem kept_closeAttempt (L : AccountLaw A) {s : State} (c : AttemptClass) (h : Kept A s) :
    Kept A (closeAttempt c s) := by
  unfold closeAttempt
  split
  · exact h
  · rename_i a _
    have h1 : Kept A (chargeStart c a.tenths
        (startConditions s.config.armed.conditions.lowBatteryLimit a a.closedMin) (countStart c s)) :=
      kept_charge L _ (kept_countStart L c h)
    exact (kept_logStart L a c h1).same

theorem kept_engineIgnition (L : AccountLaw A) {s : State} (b : Bool) (h : Kept A s) : Kept A (engineIgnition b s) := by
  unfold engineIgnition
  split
  · exact kept_enterReady h
  · exact kept_moveEngine _ h
  · exact kept_ignitionCut (kept_closeAttempt L .failed h)
  · exact kept_ignitionCut (kept_closeAttempt L .failed h)
  · exact kept_moveEngine _ (kept_closeAttempt L .reEngage h)
  · dsimp only; split
    · split
      · exact kept_openAttempt _ (kept_moveEngine _ h)
      · exact kept_moveEngine _ h
    · exact kept_enterReady h
  · exact h

theorem kept_engineCrank (L : AccountLaw A) {s : State} (b : Bool) (h : Kept A s) : Kept A (engineCrank b s) := by
  unfold engineCrank
  split
  · exact kept_startCranking h
  · split
    · exact kept_moveEngine _ (kept_stopCrank h)
    · exact kept_enterReady (kept_closeAttempt L .failed h)
  · exact kept_resumeCrank (kept_moveEngine _ h)
  · exact kept_openAttempt _ h
  · exact kept_closeAttempt L _ h
  · exact h

theorem kept_engineStall (L : AccountLaw A) {s : State} (h : Kept A s) : Kept A (engineStall s) :=
  kept_enterReady (kept_count L _ (kept_onMeters _ (kept_closeAttempt L .reEngage h)))

theorem kept_engineSpeed (L : AccountLaw A) {s : State} (h : Kept A s) : Kept A (engineSpeed s) := by
  unfold engineSpeed
  split
  · split
    · exact kept_startPushed h
    · exact h
  · split
    · exact h
    · exact kept_enterReady (kept_closeAttempt L .failed h)
  · split
    · exact h
    · exact kept_engineStall L h
  · split
    · exact h
    · exact kept_moveEngine _ h
  · exact h
  · exact h

theorem kept_speedChanged (L : AccountLaw A) {s : State} (sh : Shaft) (b : Bool) (h : Kept A s) :
    Kept A (speedChanged sh b s) := by
  unfold speedChanged
  split
  · split
    · split
      · exact kept_engineSpeed L (kept_clutchSpeed h)
      · exact kept_clutchSpeed (kept_engineSpeed L h)
    · exact kept_clutchSpeed h
    · exact h
  · exact h

theorem kept_clutchPedal (L : AccountLaw A) {s : State} (b : Bool) (h : Kept A s) : Kept A (clutchPedal b s) := by
  unfold clutchPedal
  split
  · exact h.same
  · exact h.same
  · exact kept_clutchToSlipping (kept_count L _ (kept_onMeters _ h))
  · exact h

theorem kept_takeConfirmExpiry (L : AccountLaw A) {s : State} (h : Kept A s) : Kept A (takeConfirmExpiry s) := by
  unfold takeConfirmExpiry
  split
  · exact kept_moveEngine _ (kept_closeAttempt L _ h)
  · exact h

theorem kept_engageGear (L : AccountLaw A) {s : State} (g : Gear) (h : Kept A s) : Kept A (engageGear g s) := by
  unfold engageGear
  exact kept_charge L _ (kept_count L _ (kept_onMeters _ h))

theorem kept_trackGear (L : AccountLaw A) {s : State} (h : Kept A s) : Kept A (trackGear s) := by
  unfold trackGear
  dsimp only
  generalize (if candidateGear s = s.duty.heldGear then min (s.duty.runCount + 1) 30 else 1) = run
  split
  · split
    · exact h.same
    · exact kept_engageGear L _ h.same
  · exact h.same

theorem kept_tallyMeters (L : AccountLaw A) {s : State} (n : Nat) (h : Kept A s) : Kept A (tallyMeters n s) := by
  unfold tallyMeters
  exact kept_count L _ (kept_onMeters _ h)

/-! ## Channels and time -/

theorem kept_putChannel (L : AccountLaw A) {s : State} (sh : Shaft) (v : Channel) (b : Bool) (h : Kept A s) :
    Kept A (putChannel sh v b s) := by
  unfold putChannel
  dsimp only
  split
  · exact h.same
  · exact kept_speedChanged L _ _ h.same

theorem kept_takeStall (L : AccountLaw A) {s : State} (sh : Shaft) (b : Bool) (h : Kept A s) :
    Kept A (takeStall sh b s) := by
  unfold takeStall
  dsimp only
  split
  · exact h
  · split
    · exact kept_putChannel L _ _ _ h
    · exact h

theorem kept_takeOverdueStall (L : AccountLaw A) {s : State} (h : Kept A s) : Kept A (takeOverdueStall s) := by
  unfold takeOverdueStall
  split
  · exact h
  · exact kept_takeStall L _ _ h

theorem kept_streamTally {s : State} (h : Kept A s) : Kept A (streamTally s) := by
  unfold streamTally
  split
  · exact h
  · split
    · exact h.same
    · dsimp only
      split
      · exact h.same
      · split <;> exact h.same

theorem kept_tallyWork (L : AccountLaw A) {s : State} (o : TallyOrder) (h : Kept A s) : Kept A (tallyWork o s) := by
  have hm := kept_tallyMeters L s.drain (kept_drainOut h)
  obtain ⟨g, r⟩ := o
  cases g <;> cases r
  · exact kept_streamTally (kept_trackGear L (kept_charge L _ hm))
  · exact kept_trackGear L (kept_charge L _ (kept_streamTally hm))
  · exact kept_streamTally (kept_charge L _ (kept_trackGear L hm))
  · exact kept_charge L _ (kept_trackGear L (kept_streamTally hm))

theorem kept_takeTally (L : AccountLaw A) {s : State} (o : TallyOrder) (h : Kept A s) : Kept A (takeTally o s) := by
  unfold takeTally
  split
  · exact kept_tallyWork L _ h.same
  · exact h

/-! ## Hires -/

theorem appendSummary_history (m : Summary) (s : State) :
    (appendSummary m s).hires = { s.hires with history := appended s.hires.history m } := by
  unfold appendSummary appended
  split
  · dsimp only; split <;> simp
  · split <;> simp [*]

theorem closeOpenHire_hires (c : CloseCause) (s : State) :
    (closeOpenHire c s).hires = s.hires.closed c s.clock.time := by
  unfold closeOpenHire Hires.closed
  split
  · simp [*]
  · simp [appendSummary_history, *]

@[simp] theorem appendSummary_frame (m : Summary) (s : State) :
    (appendSummary m s).inputs = s.inputs ∧ (appendSummary m s).duty = s.duty ∧
    (appendSummary m s).starts = s.starts ∧ (appendSummary m s).table = s.table ∧
    (appendSummary m s).config = s.config ∧ (appendSummary m s).clock = s.clock ∧
    (appendSummary m s).store = s.store ∧ (appendSummary m s).freePicks = s.freePicks ∧
    (appendSummary m s).pending = s.pending ∧ (appendSummary m s).link.queue = s.link.queue ∧
    (appendSummary m s).link.deferred = s.link.deferred ∧ (appendSummary m s).link.ready = s.link.ready ∧
    (appendSummary m s).link.tx = s.link.tx := by
  unfold appendSummary
  split
  · dsimp only; split <;> simp
  · split <;> simp

@[simp] theorem closeOpenHire_frame (c : CloseCause) (s : State) :
    (closeOpenHire c s).inputs = s.inputs ∧ (closeOpenHire c s).duty = s.duty ∧
    (closeOpenHire c s).starts = s.starts ∧ (closeOpenHire c s).table = s.table ∧
    (closeOpenHire c s).config = s.config ∧ (closeOpenHire c s).clock = s.clock ∧
    (closeOpenHire c s).store = s.store ∧ (closeOpenHire c s).freePicks = s.freePicks ∧
    (closeOpenHire c s).pending = s.pending ∧ (closeOpenHire c s).link.queue = s.link.queue ∧
    (closeOpenHire c s).link.deferred = s.link.deferred ∧ (closeOpenHire c s).link.ready = s.link.ready ∧
    (closeOpenHire c s).link.tx = s.link.tx ∧ (closeOpenHire c s).hires.next = s.hires.next ∧
    (closeOpenHire c s).hires.current = none := by
  unfold closeOpenHire
  split
  · simp [*]
  · simp [appendSummary_history]

theorem kept_closeOpenHire (L : AccountLaw A) {s : State} (c : CloseCause) (h : Kept A s) :
    Kept A (closeOpenHire c s) := by
  refine Kept.change h (by simp) fun ha => ?_
  have h1 := L.close _ ha c s.clock.time
  have h2 : { (closeOpenHire c s).hires with secured := 0 } = s.accounts.hires.closed c s.clock.time := by
    rw [closeOpenHire_hires]
    unfold Hires.closed State.accounts
    dsimp only
    split <;> rfl
  rw [← h2] at h1
  simpa [State.accounts, State.inSetup] using h1

theorem kept_autoClose (L : AccountLaw A) {s : State} (h : Kept A s) : Kept A (autoClose s) := by
  unfold autoClose
  split
  · exact h
  · split
    · exact kept_askCommit L (kept_raise _ _ (kept_closeOpenHire L .ignitionOff h))
    · exact h

theorem kept_openNewHire (L : AccountLaw A) {s : State} (key : Nat) (hs : s.inSetup = false)
    (hn : s.hires.next < exhausted) (h : Kept A s) : Kept A (openNewHire key s) := by
  unfold openNewHire
  refine Kept.change (kept_closeOpenHire L .superseded h) rfl fun ha => ?_
  have hs' : s.config.staging.isSome = false := hs
  exact L.openHire _ ha (newHire key (closeOpenHire .superseded s)) (by simp [State.accounts])
    (by simp [State.accounts, State.inSetup, hs']) (by simp [State.accounts, hn])
    (by simp [State.accounts, newHire]) rfl rfl

theorem kept_setSuspended (L : AccountLaw A) {s : State} (b : Bool) (h : Kept A s) : Kept A (setSuspended b s) :=
  Kept.change h rfl fun ha => L.suspend _ ha b

/-! ## Lines, power, time -/

theorem kept_ignitionChanged (L : AccountLaw A) {s : State} (b f : Bool) (h : Kept A s) :
    Kept A (ignitionChanged b f s) := by
  have hp : ∀ b, Kept A (powerIgnition b s) := fun b => by
    unfold powerIgnition
    dsimp only
    split <;> exact h.same
  unfold ignitionChanged ignitionOff
  split
  · exact kept_startLampCheck (kept_engineIgnition L _ (hp true))
  · split
    · exact kept_engineIgnition L _ (kept_autoClose L (hp false))
    · exact kept_autoClose L (kept_engineIgnition L _ (hp false))

theorem kept_takeLevelChange (L : AccountLaw A) {s : State} (l : SwitchLine) (b : Bool) (h : Kept A s) :
    Kept A (takeLevelChange l b s) := by
  unfold takeLevelChange
  dsimp only
  split
  · unfold levelReaches
    split
    · exact kept_ignitionChanged L _ _ h.same
    · refine kept_engineCrank L _ ?_
      unfold powerCrank
      exact kept_reloadDoze (kept_cancelSleep h.same)
    · exact kept_clutchPedal L _ h.same
    · exact h.same
  · exact h

theorem kept_takeDozeExpiry (L : AccountLaw A) {s : State} (h : Kept A s) : Kept A (takeDozeExpiry s) := by
  unfold takeDozeExpiry
  dsimp only
  split
  · split
    · split
      · exact kept_askCommit L h.same
      · exact h.same
    · exact h.same
  · exact h

theorem kept_takeCheckpointTest (L : AccountLaw A) {s : State} (h : Kept A s) : Kept A (takeCheckpointTest s) := by
  unfold takeCheckpointTest
  dsimp only
  split
  · split
    · exact kept_askCommit L h.same
    · exact h.same
  · exact h

theorem kept_catchUp {s : State} (due : State → Bool) {take : State → State}
    (keeps : ∀ t, Kept A t → Kept A (take t)) (h : Kept A s) : Kept A (catchUp due take s) := by
  unfold catchUp
  split
  · exact (keeps s h).same
  · exact h

theorem kept_dueEvents (L : AccountLaw A) : ∀ e ∈ dueEvents, ∀ t, Kept A t → Kept A (e.2 t) := by
  simp only [dueEvents, List.forall_mem_cons, List.not_mem_nil, false_implies, implies_true, and_true]
  exact ⟨fun _ => kept_takeLevelChange L _ _, fun _ => kept_takeLevelChange L _ _, fun _ => kept_takeLevelChange L _ _,
    fun _ => kept_takeLevelChange L _ _, fun _ => kept_takeConfirmExpiry L, fun _ => kept_takeLockExpiry,
    fun _ => kept_takeFreshnessExpiry, fun _ => kept_takeDozeExpiry L, fun _ => kept_takeLampCheckEnd,
    fun _ => kept_takeLampBoundary _, fun _ => kept_takeLampBoundary _, fun _ => kept_takeTally L _,
    fun _ => kept_takeCheckpointTest L⟩

theorem kept_caughtUp (es : List ((State → Bool) × (State → State))) (keeps : ∀ e ∈ es, ∀ t, Kept A t → Kept A (e.2 t))
    (s : State) (h : Kept A s) : Kept A (es.foldl (fun t e => catchUp e.1 e.2 t) s) := by
  induction es generalizing s with
  | nil => exact h
  | cons e es ih =>
    exact ih (fun d hd => keeps d (List.mem_cons_of_mem _ hd)) _ (kept_catchUp _ (keeps e List.mem_cons_self) h)

theorem kept_takeDue (L : AccountLaw A) {s : State} (h : Kept A s) : Kept A (takeDue s) := by
  unfold takeDue
  exact kept_caughtUp dueEvents (kept_dueEvents L) s h

theorem kept_catchStall (L : AccountLaw A) {s : State} (h : Kept A s) : Kept A (catchStall s) :=
  kept_catchUp _ (fun _ => kept_takeOverdueStall L) h

theorem kept_passTime (L : AccountLaw A) {s : State} (us : Nat) (h : Kept A s) : Kept A (passTime us s) := by
  unfold passTime
  dsimp only
  split
  · exact h
  · have hd := kept_takeDue L h
    generalize takeDue s = d at hd ⊢
    exact kept_catchStall L (kept_catchStall L (kept_catchStall L (Kept.frame rfl rfl rfl hd)))

theorem kept_stepDoze {s : State} (h : Kept A s) : Kept A (stepDoze s) := by
  unfold stepDoze
  split
  · split
    · exact h
    · exact Kept.frame rfl rfl rfl h
  · exact h

theorem kept_tickStep (L : AccountLaw A) {s : State} (v : Nat) (h : Kept A s) : Kept A (tickStep v s) := by
  have h1 : Kept A (stepDoze (stepTimers (stepMeterTime (instantOver { s with inputs.tickUs := 0 })))) :=
    kept_stepDoze (Kept.frame rfl rfl rfl h)
  unfold tickStep takeSample
  split
  · dsimp only
    unfold testSupply
    split
    · split
      · exact kept_askCommit L (Kept.frame rfl rfl rfl h1)
      · exact Kept.frame rfl rfl rfl h1
    · split <;> exact Kept.frame rfl rfl rfl h1
  · exact h1

end Sys2Proof.Machine
end

