-- ==== Sys2Proof/Laws/KeptExec.lean ====
section
/-! SUPPORT. A law of the accounts is kept by every command. -/

namespace Sys2Proof.Machine

set_option Elab.async false

open Sys2Proof Sys2Proof.Safety

variable {A : Accounts → Prop}

/-- A property of the next state an outcome answers, if it answers one. -/
def After (P : State → Prop) (o : Host.Outcome State Fault Refusal) : Prop := ∀ t, o = .next t → P t

theorem after_next {P : State → Prop} {s : State} (h : P s) : After P (.next s) := by
  intro t ht
  cases ht
  exact h

theorem kept_settled {s : State} (h : Kept A s) : After (Kept A) (settled s) := after_next h.same

theorem kept_whenDue {s : State} (b : Bool) (work : State → State) (h : Kept A s) (hw : Kept A (work s)) :
    After (Kept A) (whenDue b work s) := by
  unfold whenDue
  split
  · exact kept_settled hw
  · exact after_next h

theorem kept_answer {s : State} (f : Frame) (c : ReplyCode) (fs : List Field) (h : Kept A s) :
    Kept A (answer f c fs s) := Kept.frame rfl rfl rfl h

theorem kept_deferReply (L : AccountLaw A) {s : State} (f : Frame) (d : DeferredForm) (a : AfterReply) (h : Kept A s) :
    Kept A (deferReply f d a s) := kept_askCommit L (Kept.frame rfl rfl rfl h)

theorem kept_takeHead {s : State} (mine : Byte → Bool) (work : Frame → State → State) (h : Kept A s)
    (hw : ∀ f s, Kept A s → Kept A (work f s)) : After (Kept A) (takeHead mine work s) := by
  unfold takeHead
  split
  · exact after_next h
  · split
    · exact kept_settled (hw _ _ (Kept.frame rfl rfl rfl h))
    · exact after_next h

theorem kept_noPayload {work : Frame → State → State} (hw : ∀ f s, Kept A s → Kept A (work f s)) (f : Frame) (s : State)
    (h : Kept A s) : Kept A (noPayload work f s) := by
  unfold noPayload
  split
  · exact hw _ _ h
  · exact kept_answer _ _ _ h

theorem kept_withFields {ws : List Nat} {work : Frame → List Nat → State → State}
    (hw : ∀ f vs s, Kept A s → Kept A (work f vs s)) (f : Frame) (s : State)
    (h : Kept A s) : Kept A (withFields ws work f s) := by
  unfold withFields
  split
  · exact hw _ _ _ h
  · exact kept_answer _ _ _ h

theorem kept_onSlot {n : Nat} {work : Frame → Slot → State → State}
    (hw : ∀ f k s, Kept A s → Kept A (work f k s)) (f : Frame) (s : State)
    (h : Kept A s) : Kept A (onSlot n work f s) := by
  unfold onSlot
  split
  · exact hw _ _ _ h
  · exact kept_answer _ _ _ h

theorem kept_enterFrame {s : State} (f : Frame) (h : Kept A s) : Kept A (enterFrame f s) := by
  unfold enterFrame
  split
  · exact kept_reloadDoze (kept_cancelSleep (Kept.frame rfl rfl rfl h))
  · exact kept_raise _ _ h

theorem kept_receive {s : State} (items : List RxItem) (h : Kept A s) : Kept A (receive items s) := by
  unfold receive
  split
  · dsimp only
    have : ∀ (fs : List Frame) (t : State), Kept A t → Kept A (fs.foldl (fun t f => enterFrame f t) t) := by
      intro fs
      induction fs with
      | nil => intro t ht; exact ht
      | cons f fs ih => intro t ht; exact ih _ (kept_enterFrame f ht)
    exact this _ _ (Kept.frame rfl rfl rfl h)
  · exact Kept.frame rfl rfl rfl h

theorem kept_endSettle (L : AccountLaw A) {s : State} (h : Kept A s) : Kept A (endSettle s) := by
  have hp : ∀ s, Kept A s → Kept A (decidePower s) := fun s h => by
    unfold decidePower
    split <;> exact Kept.frame rfl rfl rfl h
  have h1 : Kept A (settleLines s) := Kept.frame rfl rfl rfl h
  have h2 := kept_formLampsAfresh (hp _ (kept_decideClutch (kept_decideEngine h1)))
  have h3 := kept_raise .restored
    (.index (formLampsAfresh (decidePower (decideClutch (decideEngine (settleLines s))))).clock.outcome.code) h2
  exact kept_askCommit L (Kept.frame rfl rfl rfl h3)

theorem kept_watchPin {s : State} (l : SwitchLine) (b : Bool) (h : Kept A s) : Kept A (watchPin l b s) := h.same

theorem kept_wake (L : AccountLaw A) {s : State} (h : Kept A s) : Kept A (wake s) := by
  have h1 : Kept A (formLampsAfresh (loadDoze { s with clock.power := .doze, clock.waking := false })) :=
    kept_formLampsAfresh (Kept.frame rfl rfl rfl h)
  unfold wake
  dsimp only
  split
  · exact kept_askCommit L (Kept.frame rfl rfl rfl h1)
  · exact h1

theorem kept_passTo (L : AccountLaw A) {s : State} (us : Nat) (h : Kept A s) : Kept A (passTo us s) :=
  kept_passTime L _ h

theorem kept_countEdge {s : State} (sh : Shaft) (h : Kept A s) : Kept A (countEdge sh s) := by
  unfold countEdge
  split
  · exact Kept.frame rfl rfl rfl h
  · exact h
  · exact h

theorem kept_edgeAt (L : AccountLaw A) {s : State} (sh : Shaft) (t : Transition) (us : Nat) (b : Bool) (h : Kept A s) :
    Kept A (edgeAt sh t us b s) := by
  have hp := kept_passTo L us h
  unfold edgeAt
  dsimp only
  split
  · unfold takeEdge
    split
    · split
      · unfold acceptAwake
        have h1 := kept_countEdge sh (kept_putChannel L sh
          (((passTo us s).inputs.channel sh).edge ((passTo us s).config.armed.channel sh) (passTo us s).inputs.captureUs)
          b hp)
        cases sh
        · exact h1
        · exact h1
        · exact kept_dozeEdge h1
      · unfold acceptAsleep
        have h2 : Kept A { passTo us s with inputs.out.lastEdge := some (passTo us s).inputs.captureUs } :=
          Kept.frame rfl rfl rfl hp
        have h1 := kept_countEdge .out h2
        dsimp only
        split
        · exact Kept.frame rfl rfl rfl h1
        · exact h1
    · exact hp
  · exact hp

theorem kept_frameSent (L : AccountLaw A) {s : State} (x : TxSource) (h : Kept A s) : Kept A (frameSent x s) := by
  unfold frameSent
  split
  · exact kept_stopped L _ h
  · exact kept_sleepTest (Kept.frame rfl rfl rfl h)
  all_goals exact h

/-! ## Requests -/

theorem kept_openHireWork (L : AccountLaw A) (f : Frame) (key : Nat) (s : State) (h : Kept A s) :
    Kept A (openHireWork f key s) := by
  unfold openHireWork
  split
  · exact kept_answer _ _ _ h
  · split
    · exact kept_answer _ _ _ h
    · exact kept_deferReply L _ _ _ (kept_openNewHire L _ (by simp_all) (by simp_all) h)

theorem kept_closeHireWork (L : AccountLaw A) (f : Frame) (s : State) (h : Kept A s) : Kept A (closeHireWork f s) := by
  unfold closeHireWork
  split
  · exact kept_answer _ _ _ h
  · exact kept_deferReply L _ _ _ (kept_closeOpenHire L _ h)

theorem kept_suspendWork (L : AccountLaw A) (b : Bool) (f : Frame) (s : State) (h : Kept A s) :
    Kept A (suspendWork b f s) := by
  unfold suspendWork
  split
  · exact kept_answer _ _ _ h
  · split
    · exact kept_answer _ _ _ h
    · exact kept_deferReply L _ _ _ (kept_setSuspended L _ h)

theorem releaseThrough_secured (n m : Nat) (h : Hires) :
    { releaseThrough n h with secured := m } = releaseThrough n { h with secured := m } := by
  unfold releaseThrough
  dsimp only
  split <;> rfl

theorem kept_releaseHistoryWork (L : AccountLaw A) (f : Frame) (n : Nat) (s : State) (h : Kept A s) :
    Kept A (releaseHistoryWork f n s) := by
  unfold releaseHistoryWork
  dsimp only
  split
  · exact kept_answer _ _ _ h
  · refine kept_deferReply L _ _ _ (Kept.change h rfl fun ha => ?_)
    have := L.release _ ha n
    simpa [State.accounts, State.inSetup, releaseThrough_secured] using this

theorem kept_releaseIdleWork (L : AccountLaw A) (f : Frame) (s : State) (h : Kept A s) : Kept A (releaseIdleWork f s) :=
  kept_deferReply L _ _ _ (Kept.change h rfl fun ha => L.pool _ ha)

theorem kept_declareWork (f : Frame) (a b c : Nat) (s : State) (h : Kept A s) : Kept A (declareWork f a b c s) := by
  unfold declareWork
  split
  · exact kept_answer _ _ _ (kept_declare _ _ h)
  · exact kept_answer _ _ _ h

theorem kept_changeSlot (L : AccountLaw A) {s : State} (k : Slot) (g : SlotMeters → SlotMeters)
    (hg : ∀ m, (g m).total = m.total ∧ (g m).residue = m.residue ∧ (g m).frozen = m.frozen) (h : Kept A s) :
    Kept A (changeSlot k g s) := by
  unfold changeSlot
  refine kept_marksChanged _ (Kept.change h rfl fun ha => L.marked _ ha _ ?_)
  intro j
  simp only [State.accounts, Eight.get_set]
  split
  · subst j
    exact hg _
  · exact ⟨rfl, rfl, rfl⟩

theorem kept_recordServiceWork (L : AccountLaw A) (f : Frame) (k : Slot) (s : State) (h : Kept A s) :
    Kept A (recordServiceWork f k s) :=
  kept_deferReply L _ _ _ (kept_changeSlot L _ _ (fun _ => ⟨rfl, rfl, rfl⟩) h)

theorem kept_installUnitWork (L : AccountLaw A) (n : Nat) (f : Frame) (k : Slot) (s : State) (h : Kept A s) :
    Kept A (installUnitWork n f k s) :=
  kept_deferReply L _ _ _ (kept_changeSlot L _ _ (fun _ => ⟨rfl, rfl, rfl⟩) h)

/-- The mode changes to SETUP, or the staging set changes within it, with no hire open. -/
theorem kept_staging (L : AccountLaw A) {s : State} (c : Settings) (hn : s.hires.current = none) (h : Kept A s) :
    Kept A { s with config.staging := some c } :=
  Kept.change h rfl fun ha => L.enter _ ha (by simp [State.accounts, hn])

/-- The mode changes to ARMED. -/
theorem kept_armed (L : AccountLaw A) {s : State} (h : Kept A s) : Kept A { s with config.staging := none } :=
  Kept.change h rfl fun ha => L.leave _ ha

/-- No hire is open in SETUP. -/
theorem Kept.noHire (L : AccountLaw A) {s : State} (h : Kept A s) (hs : s.inSetup = true) : s.hires.current = none := by
  simpa [State.accounts] using L.excludes _ h.1 hs

theorem kept_enterSetupWork (L : AccountLaw A) (f : Frame) (s : State) (h : Kept A s) : Kept A (enterSetupWork f s) := by
  unfold enterSetupWork
  split
  · exact kept_answer _ _ _ h
  · exact kept_answer _ _ _ (kept_staging L _ (by simp_all) h)

theorem kept_setItemWork (L : AccountLaw A) (f : Frame) (s : State) (h : Kept A s) : Kept A (setItemWork f s) := by
  unfold setItemWork
  split
  · exact kept_answer _ _ _ h
  · split
    · exact kept_answer _ _ _ h
    · exact kept_answer _ _ _ (kept_staging L _ (h.noHire L (by simp [State.inSetup, *])) h)

theorem kept_readItemWork (f : Frame) (n : Nat) (s : State) (h : Kept A s) : Kept A (readItemWork f n s) := by
  unfold readItemWork
  split <;> exact kept_answer _ _ _ h

theorem kept_restall (L : AccountLaw A) {s : State} (sh : Shaft) (c : Settings) (b : Bool) (h : Kept A s) :
    Kept A (restall sh c b s) := by
  unfold restall
  split
  · exact h
  · exact kept_takeStall L _ _ h

theorem kept_swap (L : AccountLaw A) {s : State} (c : Settings) (h : Kept A s) : Kept A (swap c s) := by
  have h1 : Kept A { s with
      config.armed := c, config.staging := none, config.generation := nextGeneration s.config.generation,
      inputs := rearmOut s.config.armed.chOut c.chOut s.inputs,
      table.slots := Eight.zip remark c.slots s.table.slots } :=
    Kept.change h rfl fun ha => L.marked _ (L.leave _ ha) _ fun k => by
      simp only [State.accounts, Eight.get_zip]
      exact ⟨rfl, rfl, rfl⟩
  have h2 : ∀ u : State, Kept A u → Kept A (rearmLamps s.config.armed u) := fun u hu => by
    unfold rearmLamps
    split
    · exact Kept.frame rfl rfl rfl hu
    · exact hu
  have h3 : ∀ u : State, Kept A u → Kept A (restallAll s.config.armed u) := fun u hu => by
    unfold restallAll
    dsimp only
    have hc : Kept A { u with freePicks := u.freePicks + 1 } := Kept.frame rfl rfl rfl hu
    split
    · exact kept_restall L _ _ _ (kept_restall L _ _ _ (kept_restall L _ _ _ hc))
    · exact kept_restall L _ _ _ (kept_restall L _ _ _ (kept_restall L _ _ _ hc))
  have h4 : ∀ u : State, Kept A u → Kept A (rearmTimers s.config.armed u) := fun u hu => by
    unfold rearmTimers
    dsimp only
    have hc : Kept A (if s.config.armed.engine = u.config.armed.engine then u else takeConfirmExpiry u) := by
      split
      · exact hu
      · exact kept_takeConfirmExpiry L hu
    split
    · exact hc
    · exact kept_takeLockExpiry hc
  have h5 : ∀ (b : Eight SlotMeters) (u : State), Kept A u → Kept A (raiseMarks b u) := fun b u hu => hu.same
  exact h4 _ (h3 _ (h2 _ (h5 _ _ h1)))

theorem kept_armWork (L : AccountLaw A) (f : Frame) (s : State) (h : Kept A s) : Kept A (armWork f s) := by
  unfold armWork
  split
  · exact kept_answer _ _ _ h
  · split
    · exact kept_answer _ _ _ h
    · split
      · exact kept_answer _ _ _ (kept_armed L h)
      · exact kept_deferReply L _ _ _ (kept_swap L _ h)

theorem kept_loadDefaultsWork (L : AccountLaw A) (f : Frame) (s : State) (h : Kept A s) :
    Kept A (loadDefaultsWork f s) := by
  unfold loadDefaultsWork
  split
  · rename_i hs
    exact kept_answer _ _ _ (kept_staging L _ (h.noHire L hs) h)
  · exact kept_answer _ _ _ h

theorem kept_clearAccounts (L : AccountLaw A) {s : State} (hn : s.hires.current = none) (h : Kept A s) :
    Kept A (clearAccounts s) := by
  unfold clearAccounts
  exact kept_formLamps (Kept.change h rfl fun ha => L.clear _ ha (by simp [State.accounts, hn]))

theorem kept_clearAccountingWork (L : AccountLaw A) (f : Frame) (s : State) (h : Kept A s) :
    Kept A (clearAccountingWork f s) := by
  unfold clearAccountingWork
  split
  · exact kept_answer _ _ _ h
  · rename_i hs
    split
    · exact kept_answer _ _ _ h
    · exact kept_deferReply L _ _ _ (kept_clearAccounts L (h.noHire L (by simpa using hs)) h)

theorem kept_streamWork (f : Frame) (a b : Nat) (s : State) (h : Kept A s) : Kept A (streamWork f a b s) := by
  unfold streamWork
  split
  · exact kept_answer _ _ _ h
  · split <;> exact kept_answer _ _ _ (Kept.frame rfl rfl rfl h)

theorem kept_sleepWork (L : AccountLaw A) (f : Frame) (s : State) (h : Kept A s) : Kept A (sleepWork f s) := by
  unfold sleepWork
  split
  · exact kept_answer _ _ _ h
  · split
    · exact kept_answer _ _ _ h
    · exact kept_deferReply L _ _ _ (Kept.frame rfl rfl rfl h)

/-- A law of the accounts that each way of changing them keeps is kept by every command, in the working state and in
every image. -/
theorem kept_exec (L : AccountLaw A) (c : Instr) (s : State) (h : Kept A s) : After (Kept A) (exec c s) := by
  cases c with
  | powerOn =>
    show After _ (execPowerOn s)
    unfold execPowerOn
    split
    · exact after_next h
    · exact after_next (kept_stopped L _ (Kept.frame rfl rfl rfl h))
  | powerLoss =>
    show After _ (execPowerLoss s)
    unfold execPowerLoss
    split
    · exact after_next (kept_stopped L _ (Kept.frame rfl rfl rfl h))
    · exact after_next h
  | resetnLow =>
    show After _ (execResetnLow s)
    unfold execResetnLow
    split
    · exact after_next (kept_stopped L _ (Kept.frame rfl rfl rfl h))
    · exact after_next (Kept.frame rfl rfl rfl h)
  | resetnRise =>
    show After _ (execResetnRise s)
    unfold execResetnRise
    split
    · exact after_next h
    · split
      · exact after_next (kept_stopped L _ (Kept.frame rfl rfl rfl h))
      · exact after_next (Kept.frame rfl rfl rfl h)
  | restoreStepEnd b => exact kept_whenDue _ _ h (kept_endRestore L _ h)
  | settleEnd => exact kept_whenDue _ _ h (kept_endSettle L h)
  | pulseEdge sh t us b => exact kept_whenDue _ _ h (kept_edgeAt L _ _ _ _ h)
  | channelStall sh us b =>
    show After _ (execChannelStall sh us b s)
    unfold execChannelStall
    exact kept_whenDue _ _ h (kept_takeStall L _ _ (kept_passTo L us h))
  | lineLevelChange l b => exact kept_whenDue _ _ h (kept_takeLevelChange L _ _ h)
  | wakeSource x =>
    refine kept_whenDue _ _ h ?_
    cases x
    · exact kept_watchPin _ _ h
    · exact kept_watchPin _ _ h
    · exact Kept.frame rfl rfl rfl h
  | wakeComplete => exact kept_whenDue _ _ h (kept_wake L h)
  | meterTick v =>
    show After _ (execMeterTick v s)
    unfold execMeterTick
    exact kept_whenDue _ _ h (kept_tickStep L v (kept_passTime L _ h))
  | tally o => exact kept_whenDue _ _ h (kept_takeTally L _ h)
  | checkpointDue => exact kept_whenDue _ _ h (kept_takeCheckpointTest L h)
  | confirmTimerExpiry => exact kept_whenDue _ _ h (kept_takeConfirmExpiry L h)
  | lockTimerExpiry => exact kept_whenDue _ _ h (kept_takeLockExpiry h)
  | freshnessExpiry => exact kept_whenDue _ _ h (kept_takeFreshnessExpiry h)
  | dozeTimerExpiry => exact kept_whenDue _ _ h (kept_takeDozeExpiry L h)
  | lampCheckExpiry => exact kept_whenDue _ _ h (kept_takeLampCheckEnd h)
  | blinkPhaseBoundary m => exact kept_whenDue _ _ h (kept_takeLampBoundary _ h)
  | commitComplete r => exact kept_whenDue _ _ h (kept_takeCompletion L _ h)
  | frameReceived bs => exact kept_whenDue _ _ h (kept_receive _ h)
  | interByteTimeout bs => exact kept_whenDue _ _ h (kept_receive _ h)
  | frameDiscarded bs b => exact kept_whenDue _ _ h (kept_receive _ h)
  | transmitComplete =>
    show After _ (execTransmitComplete s)
    unfold execTransmitComplete
    split
    · exact after_next h
    · exact kept_settled (kept_frameSent L _ (Kept.frame rfl rfl rfl h))
  | switchLineSample l b =>
    show After _ (execSwitchLineSample l b s)
    unfold execSwitchLineSample
    split
    · exact kept_settled (Kept.frame (s := takeLevelChange l false s) rfl rfl rfl (kept_takeLevelChange L _ _ h))
    · exact kept_whenDue _ _ h (Kept.frame rfl rfl rfl h)
  | identify =>
    show After _ (execIdentify s)
    unfold execIdentify
    exact kept_takeHead _ _ h (kept_noPayload fun f s h => kept_answer _ _ _ h)
  | readStatus =>
    show After _ (execReadStatus s)
    unfold execReadStatus
    exact kept_takeHead _ _ h (kept_noPayload fun f s h => kept_answer _ _ _ h)
  | readSlot =>
    show After _ (execReadSlot s)
    unfold execReadSlot
    exact kept_takeHead _ _ h (kept_withFields fun f vs s h =>
      kept_onSlot (fun f k s h => kept_answer _ _ _ h) f s h)
  | readMeters =>
    show After _ (execReadMeters s)
    unfold execReadMeters
    exact kept_takeHead _ _ h (kept_noPayload fun f s h => kept_answer _ _ _ h)
  | readHire =>
    show After _ (execReadHire s)
    unfold execReadHire
    refine kept_takeHead _ _ h (kept_noPayload fun f s h => ?_)
    unfold readHireWork
    split <;> exact kept_answer _ _ _ h
  | readHistory =>
    show After _ (execReadHistory s)
    unfold execReadHistory
    refine kept_takeHead _ _ h (kept_withFields fun f vs s h => ?_)
    unfold readHistoryWork
    split <;> exact kept_answer _ _ _ h
  | readStartLog =>
    show After _ (execReadStartLog s)
    unfold execReadStartLog
    refine kept_takeHead _ _ h (kept_withFields fun f vs s h => ?_)
    unfold readStartLogWork
    split <;> exact kept_answer _ _ _ h
  | readIdle =>
    show After _ (execReadIdle s)
    unfold execReadIdle
    exact kept_takeHead _ _ h (kept_noPayload fun f s h => kept_answer _ _ _ h)
  | openHire =>
    show After _ (execOpenHire s)
    unfold execOpenHire
    exact kept_takeHead _ _ h (kept_withFields fun f vs s h => kept_openHireWork L _ _ _ h)
  | closeHire =>
    show After _ (execCloseHire s)
    unfold execCloseHire
    exact kept_takeHead _ _ h (kept_noPayload (kept_closeHireWork L))
  | suspendHire =>
    show After _ (execSuspendHire s)
    unfold execSuspendHire
    exact kept_takeHead _ _ h (kept_noPayload (kept_suspendWork L true))
  | resumeHire =>
    show After _ (execResumeHire s)
    unfold execResumeHire
    exact kept_takeHead _ _ h (kept_noPayload (kept_suspendWork L false))
  | releaseHistory =>
    show After _ (execReleaseHistory s)
    unfold execReleaseHistory
    exact kept_takeHead _ _ h (kept_withFields fun f vs s h => kept_releaseHistoryWork L _ _ _ h)
  | releaseIdle =>
    show After _ (execReleaseIdle s)
    unfold execReleaseIdle
    exact kept_takeHead _ _ h (kept_noPayload (kept_releaseIdleWork L))
  | declareCondition =>
    show After _ (execDeclareCondition s)
    unfold execDeclareCondition
    exact kept_takeHead _ _ h (kept_withFields fun f vs s h => kept_declareWork _ _ _ _ _ h)
  | recordService =>
    show After _ (execRecordService s)
    unfold execRecordService
    exact kept_takeHead _ _ h (kept_withFields fun f vs s h => kept_onSlot (kept_recordServiceWork L) f s h)
  | installUnit =>
    show After _ (execInstallUnit s)
    unfold execInstallUnit
    exact kept_takeHead _ _ h (kept_withFields fun f vs s h => kept_onSlot (kept_installUnitWork L _) f s h)
  | enterSetup =>
    show After _ (execEnterSetup s)
    unfold execEnterSetup
    exact kept_takeHead _ _ h (kept_noPayload (kept_enterSetupWork L))
  | setItem =>
    show After _ (execSetItem s)
    unfold execSetItem
    exact kept_takeHead _ _ h (kept_setItemWork L)
  | readItem =>
    show After _ (execReadItem s)
    unfold execReadItem
    exact kept_takeHead _ _ h (kept_withFields fun f vs s h => kept_readItemWork _ _ _ h)
  | arm =>
    show After _ (execArm s)
    unfold execArm
    exact kept_takeHead _ _ h (kept_noPayload (kept_armWork L))
  | abandon =>
    show After _ (execAbandon s)
    unfold execAbandon
    exact kept_takeHead _ _ h (kept_noPayload fun f s h => kept_answer _ _ _ (kept_armed L h))
  | loadDefaults =>
    show After _ (execLoadDefaults s)
    unfold execLoadDefaults
    exact kept_takeHead _ _ h (kept_noPayload (kept_loadDefaultsWork L))
  | clearAccounting =>
    show After _ (execClearAccounting s)
    unfold execClearAccounting
    exact kept_takeHead _ _ h (kept_noPayload (kept_clearAccountingWork L))
  | checkpoint =>
    show After _ (execCheckpoint s)
    unfold execCheckpoint
    exact kept_takeHead _ _ h (kept_noPayload fun f s h => kept_deferReply L _ _ _ h)
  | sleep =>
    show After _ (execSleep s)
    unfold execSleep
    exact kept_takeHead _ _ h (kept_noPayload (kept_sleepWork L))
  | restart =>
    show After _ (execRestart s)
    unfold execRestart
    exact kept_takeHead _ _ h (kept_noPayload fun f s h => kept_deferReply L _ _ _ (Kept.frame rfl rfl rfl h))
  | noticeMask =>
    show After _ (execNoticeMask s)
    unfold execNoticeMask
    exact kept_takeHead _ _ h (kept_withFields fun f vs s h => kept_answer _ _ _ (Kept.frame rfl rfl rfl h))
  | clearFlags =>
    show After _ (execClearFlags s)
    unfold execClearFlags
    exact kept_takeHead _ _ h (kept_withFields fun f vs s h => kept_answer _ _ _ (kept_clearFlagsIn _ h))
  | stream =>
    show After _ (execStream s)
    unfold execStream
    exact kept_takeHead _ _ h (kept_withFields fun f vs s h => kept_streamWork _ _ _ _ h)
  | unknownRequest =>
    show After _ (execUnknownRequest s)
    unfold execUnknownRequest
    exact kept_takeHead _ _ h fun f s h => kept_answer _ _ _ h
  | replyKindFrameDrop =>
    show After _ (execReplyKindFrameDrop s)
    unfold execReplyKindFrameDrop
    exact kept_takeHead _ _ h fun f s h => h

end Sys2Proof.Machine
end

