-- ==== Sys2Proof/Laws/PerInstr.lean ====
section
/-! SUPPORT. A family of lemmas about the commands as syntax, one for each command: a command that has a KIND byte is the
request that byte names, and the byte is no reply's (section 11.7.2). -/

namespace Sys2Proof.Laws.KindRoundTrip

open Sys2Proof

/-- The KIND byte of a command, where it has one, names that command, and is below the replies' own kinds. -/
def Statement (i : Instr) : Prop :=
  ∀ kind, kindOfRequest i = some kind → requestOfKind kind = some i ∧ isReplyKind kind = false

/-- A command without operands: the KIND byte, if any, is one value. -/
theorem of_kind {i : Instr} {b : Byte} (h : kindOfRequest i = some b)
    (hr : requestOfKind b = some i ∧ isReplyKind b = false) : Statement i := by
  intro kind hk
  rw [h, Option.some.injEq] at hk
  exact hk ▸ hr

/-- A command that is no request. -/
theorem of_none {i : Instr} (h : kindOfRequest i = none) : Statement i := by
  intro kind hk
  rw [h] at hk
  cases hk

theorem powerOn : Statement .powerOn := of_none rfl

theorem powerLoss : Statement .powerLoss := of_none rfl

theorem resetnLow : Statement .resetnLow := of_none rfl

theorem resetnRise : Statement .resetnRise := of_none rfl

theorem restoreStepEnd (baudselHigh : Bool) : Statement (.restoreStepEnd baudselHigh) := of_none rfl

theorem settleEnd : Statement .settleEnd := of_none rfl

theorem pulseEdge (shaft : Shaft) (transition : Transition) (us : Nat) (clutchFirst : Bool) : Statement (.pulseEdge shaft transition us clutchFirst) := of_none rfl

theorem channelStall (shaft : Shaft) (us : Nat) (clutchFirst : Bool) : Statement (.channelStall shaft us clutchFirst) := of_none rfl

theorem lineLevelChange (line : SwitchLine) (hireFirst : Bool) : Statement (.lineLevelChange line hireFirst) := of_none rfl

theorem wakeSource (source : WakeSource) : Statement (.wakeSource source) := of_none rfl

theorem wakeComplete : Statement .wakeComplete := of_none rfl

theorem meterTick (vbatPinMicroVolts : Nat) : Statement (.meterTick vbatPinMicroVolts) := of_none rfl

theorem tally (order : TallyOrder) : Statement (.tally order) := of_none rfl

theorem checkpointDue : Statement .checkpointDue := of_none rfl

theorem confirmTimerExpiry : Statement .confirmTimerExpiry := of_none rfl

theorem lockTimerExpiry : Statement .lockTimerExpiry := of_none rfl

theorem freshnessExpiry : Statement .freshnessExpiry := of_none rfl

theorem dozeTimerExpiry : Statement .dozeTimerExpiry := of_none rfl

theorem lampCheckExpiry : Statement .lampCheckExpiry := of_none rfl

theorem blinkPhaseBoundary (lamp : LampId) : Statement (.blinkPhaseBoundary lamp) := of_none rfl

theorem commitComplete (result : CommitResult) : Statement (.commitComplete result) := of_none rfl

theorem frameReceived (bytes : List Byte) : Statement (.frameReceived bytes) := of_none rfl

theorem interByteTimeout (bytes : List Byte) : Statement (.interByteTimeout bytes) := of_none rfl

theorem transmitComplete : Statement .transmitComplete := of_none rfl

theorem identify : Statement .identify := of_kind (b := 0x01) rfl (by decide)

theorem readStatus : Statement .readStatus := of_kind (b := 0x02) rfl (by decide)

theorem readSlot : Statement .readSlot := of_kind (b := 0x03) rfl (by decide)

theorem readMeters : Statement .readMeters := of_kind (b := 0x04) rfl (by decide)

theorem readHire : Statement .readHire := of_kind (b := 0x05) rfl (by decide)

theorem readHistory : Statement .readHistory := of_kind (b := 0x06) rfl (by decide)

theorem readStartLog : Statement .readStartLog := of_kind (b := 0x07) rfl (by decide)

theorem readIdle : Statement .readIdle := of_kind (b := 0x08) rfl (by decide)

theorem openHire : Statement .openHire := of_kind (b := 0x10) rfl (by decide)

theorem closeHire : Statement .closeHire := of_kind (b := 0x11) rfl (by decide)

theorem suspendHire : Statement .suspendHire := of_kind (b := 0x12) rfl (by decide)

theorem resumeHire : Statement .resumeHire := of_kind (b := 0x13) rfl (by decide)

theorem releaseHistory : Statement .releaseHistory := of_kind (b := 0x14) rfl (by decide)

theorem releaseIdle : Statement .releaseIdle := of_kind (b := 0x15) rfl (by decide)

theorem declareCondition : Statement .declareCondition := of_kind (b := 0x18) rfl (by decide)

theorem recordService : Statement .recordService := of_kind (b := 0x20) rfl (by decide)

theorem installUnit : Statement .installUnit := of_kind (b := 0x21) rfl (by decide)

theorem enterSetup : Statement .enterSetup := of_kind (b := 0x30) rfl (by decide)

theorem setItem : Statement .setItem := of_kind (b := 0x31) rfl (by decide)

theorem readItem : Statement .readItem := of_kind (b := 0x32) rfl (by decide)

theorem arm : Statement .arm := of_kind (b := 0x33) rfl (by decide)

theorem abandon : Statement .abandon := of_kind (b := 0x34) rfl (by decide)

theorem loadDefaults : Statement .loadDefaults := of_kind (b := 0x35) rfl (by decide)

theorem clearAccounting : Statement .clearAccounting := of_kind (b := 0x36) rfl (by decide)

theorem checkpoint : Statement .checkpoint := of_kind (b := 0x40) rfl (by decide)

theorem sleep : Statement .sleep := of_kind (b := 0x41) rfl (by decide)

theorem restart : Statement .restart := of_kind (b := 0x42) rfl (by decide)

theorem noticeMask : Statement .noticeMask := of_kind (b := 0x48) rfl (by decide)

theorem clearFlags : Statement .clearFlags := of_kind (b := 0x49) rfl (by decide)

theorem stream : Statement .stream := of_kind (b := 0x4A) rfl (by decide)

theorem unknownRequest : Statement .unknownRequest := of_none rfl

theorem replyKindFrameDrop : Statement .replyKindFrameDrop := of_none rfl

theorem switchLineSample (line : SwitchLine) (pinHigh : Bool) : Statement (.switchLineSample line pinHigh) := of_none rfl

theorem frameDiscarded (bytes : List Byte) (stopLow : Bool) : Statement (.frameDiscarded bytes stopLow) := of_none rfl

end Sys2Proof.Laws.KindRoundTrip
end

