-- ==== Sys2Proof/Tests/Slice0.lean ====
section
/-! SUPPORT. Small tests, with expected values from the manual's own tables and worked sequences, and for each statement
a state and operands that meet its hypotheses, each clause at a boundary of its range. -/

namespace Sys2Proof.Tests

set_option Elab.async false

open Sys2Proof Sys2Proof.Machine Sys2Proof.Safety

/-! ## Small states -/

/-- The state a command leaves. -/
def after (c : Instr) (s : State) : State :=
  match exec c s with
  | .next t => t
  | .fault _ => State.reset
  | .refused _ => State.reset

/-- Awake in DOZE with the engine OFF, at meter time 100:0, the last commit 60 s ago. -/
def dozing : State :=
  { State.reset with
    clock.power := .doze, clock.time := ⟨100, 0⟩, clock.doze := some 75000, store.lastStart := some ⟨40, 0⟩,
    store.lastArea := some 3, store.lastSequence := 4294967295 }

/-- In RUN with the engine in a state and the clutch in another, at E = 1,500 rpm and I = 1,400 rpm. -/
def driving (e : Engine) (c : Clutch) : State :=
  { dozing with
    clock.power := .run, clock.doze := none, inputs.ign.level := true, duty.engine := e, duty.clutch := c,
    inputs.eng := ⟨.turning, some 0, some 40000, 1500⟩, inputs.inp := ⟨.turning, some 0, some 42857, 1400⟩,
    inputs.captureUs := 40000 }

/-- A hire open from 90:0. -/
def anyHire : HireRecord := ⟨1, 0x5A001234, .staff, 0, ⟨90, 0⟩, false, zeroAccounts, none, zeroCounters⟩

/-- The first hire open. -/
def hired (s : State) : State := { s with hires.current := some anyHire, hires.next := 2 }

/-- A frame at the head of the receive queue. -/
def asked (kind : Byte) (payload : List Byte) (s : State) : State :=
  { s with link.queue := [⟨kind, 0x2A, payload⟩] }

/-- In SETUP, the staging set a copy of the armed one. -/
def inSetup (s : State) : State := { s with config.staging := some s.config.armed }

/-- A summary of one hire. -/
def summary (n key : Nat) (c : SummaryClass) : Summary :=
  ⟨n, n, key, c, 7, ⟨n, 0⟩, ⟨n, 10⟩, .ignitionOff, 1, zeroAccounts, none, zeroCounters⟩

/-! ## Well-formed commands: one that each check refuses -/

theorem test_wf_edge_instant : (Instr.pulseEdge .eng .rising 4000 false).wf = false := by decide
theorem test_wf_stall_instant : (Instr.channelStall .out 4000 true).wf = false := by decide
theorem test_wf_vbat_pin : (Instr.meterTick 1090001).wf = false := by decide
theorem test_wf_stop_without_byte : (Instr.frameDiscarded [] true).wf = false := by decide
theorem test_wf_admits : (Instr.pulseEdge .eng .rising 3999 false).wf = true ∧ (Instr.meterTick 1090000).wf = true ∧
    (Instr.frameDiscarded [] false).wf = true := by decide

/-! ## The link (sections 11.1 and 11.7) -/

/-- The check value of CRC-16 with polynomial 0x1021 and initial value 0xFFFF over "123456789". -/
theorem test_crc : crc16 [0x31, 0x32, 0x33, 0x34, 0x35, 0x36, 0x37, 0x38, 0x39] = 0x29B1 := by decide +kernel

/-- KIND bytes of section 11.7.2, written out. -/
theorem test_kinds :
    requestOfKind 0b00000001 = some .identify ∧ requestOfKind 0b00010000 = some .openHire ∧
      requestOfKind 0b00011000 = some .declareCondition ∧ requestOfKind 0b00100001 = some .installUnit ∧
      requestOfKind 0b00110110 = some .clearAccounting ∧ requestOfKind 0b01000010 = some .restart ∧
      requestOfKind 0b01001010 = some .stream ∧ requestOfKind 0b00001001 = none := by decide

/-- The READ_STATUS reply is 39 bytes on the line, the SLOT_DUE notice 17, the report 24, the OPEN_HIRE reply 25
(section 11.8). -/
theorem test_frame_lengths :
    (wireBytes (replyFrame 1 ⟨0x02, 0x22, .done, ⟨400000, 24⟩, statusFields dozing, .nothing, 0, 0⟩)).length = 39 ∧
      (wireBytes (noticeFrame 1 .slotDue ⟨.index 2, ⟨400000, 25⟩⟩)).length = 17 ∧
      (wireBytes (reportFrame 1 (reportFields dozing))).length = 24 ∧
      (wireBytes (replyFrame 1 ⟨0x10, 0x21, .done, ⟨400000, 18⟩,
        [.hireNo (some 1), .num 1 0, .num 2 0, .hireNo none], .nothing, 0, 0⟩)).length = 25 := by decide +kernel

/-- A SYNC inside a bad frame starts a new one (R177). -/
theorem test_resync :
    (after (.frameReceived ([0xA7, 0x00, 0x13] ++ wireBytes ⟨0x01, 0x07, []⟩ ++ [0x00])) dozing).link.queue =
      [⟨0x01, 0x07, []⟩] := by decide +kernel

/-! ## Worked cases of the manual -/

/-- The speeds of the table under R6. -/
theorem test_speed : (⟨60, .rising, 0, 200⟩ : ChannelSettings).speedOf 1000 = 1000 ∧
    (⟨30, .both, 0, 200⟩ : ChannelSettings).speedOf 1000 = 1000 ∧
    (⟨1, .rising, 0, 200⟩ : ChannelSettings).speedOf 4000 = 12000 ∧
    (⟨4, .falling, 0, 200⟩ : ChannelSettings).speedOf 70000 = 214 := by decide

/-- Section 4.6.1: the engine at 1,850 rpm with COLD active. -/
theorem test_hour : tallyRaw 0
      { driving .running .locked with inputs.eng.speed := 1850, duty.coolant := some 12, duty.fresh := true }
      factorySlots.s1 = some 80 := by decide

/-- Section 4.6.2, tally 1. -/
theorem test_slip : tallyRaw 0
      { driving .running .slipping with inputs.eng.speed := 1400, inputs.inp.speed := 380, duty.gear := 1, duty.load := .laden }
      factorySlots.s2 = some 870 := by decide

/-- Section 4.6.3: attempt 10,001 on slot 0, and a push start on slot 5. -/
theorem test_start :
    startRaw .failed 18 ⟨true, false, false, true⟩ dozing factorySlots.s0 = some 1382 ∧
      startRaw .push 0 ⟨false, false, false, false⟩ dozing factorySlots.s5 = some 409 := by decide

/-- Section 4.6.4: reverse engaged. -/
theorem test_shift : shiftRaw 7 dozing factorySlots.s3 = some 768 := by decide

/-- Section 4.6.5: a full drain in neutral, and the clamp of R74. -/
theorem test_rev : tallyRaw 600 dozing factorySlots.s4 = some 9600 ∧ rawIncrement 600 65535 8 1 = 16777215 := by decide

/-- Section 4.6.6: the slot at its limit freezes, its residue cycles. -/
theorem test_freeze : (chargeSlot factorySlots.s1 320 { blankSlot with total := 4294967294, residue := 250 }) =
    { blankSlot with total := 4294967294, residue := 58, frozen := true } := by decide

/-- The class decisions of the table under R107. -/
theorem test_classes :
    (let c := { factorySettings with
        keys.s0 := ⟨true, 0x5A000000, 8, none, .staff⟩, keys.s1 := ⟨true, 0x5B800000, 9, some 0x7F000000, .workshop⟩,
        keys.s2 := ⟨false, 0, 0, none, .staff⟩ }
     decideClass c 0x5A001234 = .staff ∧ decideClass c 0x5BC00001 = .workshop ∧ decideClass c 0x5B000001 = .customer ∧
      decideClass c 0x7F00FFFF = .workshop) := by decide

/-- Section 7.3.1: the pair of hires 485 and 486, and the merged span. -/
theorem test_merge :
    (let h := [summary 483 0x00317788 (.one .customer), summary 484 0x7F000044 (.one .workshop),
        summary 485 0x5A000010 (.one .staff), summary 486 0x5A000022 (.one .staff)]
     pairToMerge h = 2 ∧ (mergeAt 2 h).map (fun r => (r.1.first, r.1.last, r.1.keyId, r.1.generation, r.1.merged)) =
      some (485, 486, 0, 7, 2)) := by decide

/-- Section 2.3.1, tally 6: ratio 6,140 confirms gear 1. A stalled INP gives ratio 0, which lies in no window (R38). -/
theorem test_gear :
    (let s := { driving .running .locked with
        inputs.inp.speed := 1050, inputs.out.speed := 171, duty.heldGear := 1, duty.runCount := 4 }
     candidateGear s = 1 ∧ (trackGear s).duty.gear = 1 ∧ (trackGear s).duty.meters.gearEngagements.g1 = 1 ∧
      candidateGear { s with inputs.inp := channelAtRest, config.armed.gears.e1 := some ⟨100, 2000⟩ } = 0) := by
  decide +kernel

/-- Section 1.1.6: a full drain of the tow's revolutions. -/
theorem test_drain :
    (drainOut { dozing with inputs.outPending := 40028 }).inputs.outPending = 39428 := by decide

/-- Section 1.3.1: 5,420 mV enters WARNING and asks for a commit. -/
theorem test_supply : (testSupply 5420 dozing).inputs.supply = .warning ∧ (testSupply 5420 dozing).store.commit ≠ .idle ∧
    (testSupply 5700 { dozing with inputs.supply := .warning }).inputs.supply = .warning := by decide +kernel

/-- A blank part through its start-up: the first commit writes area 0 with sequence number 1 (R175). -/
theorem test_start_up :
    (let t := after .settleEnd (after (.restoreStepEnd false) State.reset)
     t.clock.power = .doze ∧ t.store.commit.code = 1 ∧ t.store.lastSequence = 1 ∧ t.clock.hold = true ∧
      t.attnLow = true) := by decide +kernel

/-- OPEN_HIRE in DOZE: hire 1, its reply withheld until the commit completes, then sent (R103, R105). -/
theorem test_open_hire :
    (let t := after .openHire (asked 0x10 [0, 0, 0, 9] dozing)
     let u := after (.commitComplete .verified) t
     t.hires.current.map (·.number) = some 1 ∧ t.link.tx = none ∧ u.hires.secured = 2 ∧ u.link.tx.isSome = true) := by
  decide +kernel

/-- SLEEP in DOZE: committed, answered, asleep (R156 to R158). -/
theorem test_sleep :
    (after .transmitComplete
      (after (.commitComplete .verified) (after .sleep (asked 0x41 [] dozing)))).clock.power = .sleep := by
  decide +kernel

/-- CLEAR_FLAGS of RESTORED alone, in a part whose coolant is STALE, raises CONDITION_STALE (R88, R181). -/
theorem test_clear_flags_tests_all :
    (let s := { dozing with link.flags := dozing.link.flags.set .restored ⟨some ⟨.index 0, ⟨0, 0⟩⟩, true, false⟩ }
     let t := after .clearFlags (asked 0x49 (bytesOf 2 (2 ^ (Flag.number .restored - 1))) s)
     (t.link.flags.get .restored).set = none ∧ (t.link.flags.get .conditionStale).set = some ⟨.none, ⟨100, 0⟩⟩ ∧
      (t.link.flags.get .slotDue).set = none) := by decide +kernel

/-- An OUT edge at the instant of the doze expiry, taken after it, cancels the sleep just set pending; one at a later
instant only reloads the doze timer (R155). -/
theorem test_out_edge_at_the_expiry :
    (let s := after .dozeTimerExpiry { dozing with clock.dozeDue := true, clock.doze := some 0 }
     (after (.pulseEdge .out .rising 0 false) s).clock.sleep = none ∧
      (after (.pulseEdge .out .rising 0 false) s).clock.doze = some 75000 ∧
      (after (.pulseEdge .out .rising 9 false) s).clock.sleep.isSome = true ∧
      (after (.pulseEdge .out .rising 9 false) s).clock.doze = some 75000) := by decide +kernel

/-! ## Witnesses: states and operands that meet each statement's hypotheses -/

/-- A state that meets every law, with a hire open, and the frame of its close at the head. -/
def lawful : State := asked 0x11 [] (hired dozing)

/-- A state at rest whose doze has expired and whose sleep pending is ready. -/
def readyToSleep : State := { dozing with clock.sleep := some ⟨.dozeExpiry, .ready, true, false⟩ }

/-- A commit in flight to area 0. -/
def committing (s : State) : State := { s with store.commit := .inFlight ⟨0, s.snapshot 5, true⟩ }

/-- A running stream in DOZE. -/
def streaming (p : Nat) (left : Option Nat) (n : Nat) : State := { dozing with link.stream := some ⟨p, left, n⟩ }

/-- An attempt of a push start. -/
def pushed (s : State) : State := { s with starts.attempt := some (newAttempt .push s) }

theorem witness_StepRunsTheFrontCommand :
    ({ dozing with pending := [.settleEnd] } : State).pending = .settleEnd :: [] ∧ dozing.pending = [] := by decide

theorem witness_CommandsKeepWhatIsNotTheirs :
    (let c : Instr := .blinkPhaseBoundary .lamp1
     exec c dozing = .next dozing ∧ startsUp c = false ∧ drives c = false ∧ kindOfRequest c = none ∧
      (∀ r, c ≠ .commitComplete r) ∧ (∀ v, c ≠ .meterTick v) ∧ (∀ b, c ≠ .frameReceived b) ∧
      (∀ b, c ≠ .interByteTimeout b) ∧ (∀ b l, c ≠ .frameDiscarded b l) ∧
      c ∉ [.enterSetup, .setItem, .arm, .abandon, .loadDefaults, .recordService, .installUnit, .clearAccounting,
        .releaseHistory, .releaseIdle, .openHire, .closeHire, .suspendHire, .resumeHire, .declareCondition, .noticeMask,
        .clearFlags, .unknownRequest, .replyKindFrameDrop]) ∧
    ((raise .supplyWarning .none dozing).link.flags.get .supplyWarning).set.isSome = true := by
  refine ⟨⟨rfl, by decide, by decide, by decide, ?_, ?_, ?_, ?_, ?_, by decide⟩, by decide⟩ <;>
    intros <;> simp

/-- One step from a state that meets each law: the close of the open hire is taken. -/
theorem witness_laws_step :
    step { lawful with pending := [.closeHire] } = .next (after .closeHire lawful) ∧
      (after .closeHire lawful).hires.history.length = 1 := ⟨rfl, by decide +kernel⟩

theorem witness_WearIsConserved : conserves { lawful with pending := [.closeHire] } = true := by decide +kernel
theorem witness_HireNumbersRunOn : numbersHires { lawful with pending := [.closeHire] } = true := by decide +kernel
theorem witness_CapacitiesAreKept : withinCapacity { lawful with pending := [.closeHire] } = true := by decide +kernel
theorem witness_TrackingFitsTogether : tracks { lawful with pending := [.closeHire] } = true := by decide +kernel
theorem witness_SleepAndHoldAreSound : rests { lawful with pending := [.closeHire] } = true := by decide +kernel
theorem witness_SettingsStayInRange : settingsInRange { lawful with pending := [.closeHire] } = true := by
  decide +kernel

/-- A frame whose payload has 248 bytes, the longest, and one behind a byte of noise whose payload holds SYNC bytes. -/
def twoFrames : List (List Byte × Frame) :=
  [([], ⟨0x01, 0, List.replicate 248 0⟩), ([0x55], ⟨0x02, 1, [0xA7, 0xA7]⟩)]

/-- Two frames and a byte of noise, of which one byte was gathered before this delivery; a queue with one place, and a
full one. -/
theorem witness_FrameIsReceived :
    (let bytes := (twoFrames.flatMap fun p => p.1 ++ wireBytes p.2) ++ [0x55]
     let s :=
      { dozing with link.queue := List.replicate 3 ⟨0x01, 0, []⟩, link.rx := (bytes.take 1).map .byte }
     s.sensing = true ∧ (∀ p ∈ twoFrames, syncByte ∉ p.1 ∧ p.2.payload.length ≤ 248) ∧
      syncByte ∉ ([0x55] : List Byte) ∧ s.link.rx ++ (bytes.drop 1).map .byte = bytes.map RxItem.byte ∧
      s.link.queue.length < 4) ∧
    ¬ ({ dozing with link.queue := List.replicate 4 ⟨0x01, 0, []⟩ } : State).link.queue.length < 4 :=
  ⟨⟨rfl, by decide +kernel, by decide, by rw [← List.map_append, List.take_append_drop], by decide⟩, by decide⟩

/-- A frame in two deliveries, cut behind its LEN: the first part stays gathered, and the rest completes it. -/
theorem witness_FrameIsReceived_in_parts :
    (let f : Frame := ⟨0x01, 0x07, []⟩
     let part := (wireBytes f).take 2
     let rest := (wireBytes f).drop 2
     let kept := after (.frameReceived ([0x11] ++ part)) dozing
     dozing.sensing = true ∧ dozing.link.rx = [] ∧ syncByte ∉ ([0x11] : List Byte) ∧ f.payload.length ≤ 248 ∧
      wireBytes f = part ++ rest ∧ rest ≠ [] ∧ kept.sensing = true ∧ kept.link.rx = part.map .byte ∧
      (after (.frameReceived rest) kept).link.queue = [f]) := by decide +kernel

/-- LEN 248 one byte short and complete, LEN 249, a low stop bit on the last byte, a CRC that differs by 1; SLEEP, with a
byte and without one; and the restore step, a held part, one without supply. A good frame, IDENTIFY with TAG 7, behind a
LEN of 249, and behind a frame whose CRC does not match. -/
theorem witness_BytesThatAreNoFrameAreDropped :
    dozing.sensing = true ∧ dozing.link.rx = [] ∧ syncByte ∉ (248 : Byte) :: List.replicate 251 0 ∧
      (List.replicate 251 (0 : Byte)).length < (248 : Byte).toNat + 4 ∧ 248 < (249 : Byte).toNat ∧
      (List.replicate 252 (0 : Byte)).length ≤ (248 : Byte).toNat + 4 ∧ (248 : Byte).toNat ≤ 248 ∧
      (let body : List Byte := [0x00, 0x01, 0x07]
       syncByte ∉ body ++ [0, 0] ∧ (0 : Byte).toNat * 256 + (0 : Byte).toNat ≠ crc16 body) ∧
      (let f : Frame := ⟨0x01, 0x07, []⟩
       syncByte ∉ (249 : Byte) :: [0x11] ∧ syncByte ∉ ([0x22] : List Byte) ∧ f.payload.length ≤ 248 ∧
        (after (.frameReceived (syncByte :: 249 :: ([0x11] ++ wireBytes f ++ [0x22]))) dozing).link.queue = [f] ∧
        (0x10 : Byte).toNat * 256 + (0x20 : Byte).toNat ≠ crc16 [0x00, 0x01, 0x06] ∧
        (after (.frameReceived (syncByte :: 0 :: 0x01 :: 0x06 :: ([] ++ 0x10 :: 0x20 :: wireBytes f))) dozing).link.queue =
          [f]) ∧
      ({ dozing with clock.power := .sleep } : State).clock.power = .sleep ∧
      (after (.frameReceived [0x55]) { dozing with clock.power := .sleep }).clock.waking = true ∧
      (after (.frameReceived []) { dozing with clock.power := .sleep }).clock.waking = false ∧
      State.reset.clock.power = .restore ∧ (after .resetnLow dozing).clock.power = .held ∧
      (after .powerLoss dozing).clock.power = .unpowered := by decide +kernel

theorem witness_ItemsReadBackAsStored : inRange factorySettings = true ∧
    inRange { factorySettings with conditions.coldLimit := -40, timing.dozeS := 65535 } = true := by decide

theorem witness_KindsAndRecordsAreLaidOut :
    isReplyKind 0x80 = true ∧ requestOfKind 0x4A = some .stream ∧ kindOfRequest .stream = some 0x4A ∧
      65535 < 256 ^ 2 ∧ (bytesOf 2 65535).foldl (fun v b => v * 256 + b.toNat) 0 = 65535 ∧
      (Field.temp (-32768)).encode 1 = bytesOf 2 32768 ∧ (Field.temp 32767).encode 1 = bytesOf 2 32767 := by decide

theorem witness_PartStopsAndStartsUp :
    dozing.clock.supplyOn = true ∧ (after .powerLoss dozing).clock.supplyOn = false ∧
      (after .resetnLow dozing).clock.resetnHigh = false ∧ (after .powerLoss dozing).store.commit = .idle := by
  decide +kernel

/-- Images across the wrap of the sequence numbers: 0 in area 1 is newer than 4,294,967,295 in area 0; area 2 holds an
image whose check word is wrong. -/
theorem witness_RestoreTakesTheNewestImage :
    (let old := dozing.snapshot 4294967295
     let new := dozing.snapshot 0
     let bad : Image := { dozing.retained 7 with check := (dozing.retained 7).checkWord + 1 }
     let s := { State.reset with
      store.areas.a0 := .image old, store.areas.a1 := .image new, store.areas.a2 := .image bad }
     s.clock.power = .restore ∧ s.store.areas.get 1 = .image new ∧ s.store.areas.get 0 = .image old ∧
      new.check = crc16 (Config.imageBytes new.toImageFields) ∧
      old.check = crc16 (Config.imageBytes old.toImageFields) ∧
      s.store.areas.get 2 = .image bad ∧ bad.check ≠ crc16 (Config.imageBytes bad.toImageFields) ∧
      s.store.areas.get 3 = .unreadable ∧ new.sequence = 0 ∧ old.sequence = 4294967295) ∧
    ¬ (1 ≤ (4294967295 + 4294967296 - 0) % 4294967296 ∧ (4294967295 + 4294967296 - 0) % 4294967296 ≤ 2147483647) ∧
    (1 ≤ (0 + 4294967296 - 4294967295) % 4294967296 ∧ (0 + 4294967296 - 4294967295) % 4294967296 ≤ 2147483647) :=
  ⟨⟨rfl, rfl, rfl, rfl, rfl, rfl, Nat.succ_ne_self _, rfl, rfl, rfl⟩, by decide, by decide⟩

/-- What stands in the working state before a restore step that is not the first is gone after it (R17, R40, R44). -/
theorem test_restore_starts_afresh :
    (let s := { driving .running .locked with
        clock.power := .restore, inputs.supply := .warning, inputs.outRemainder := 3, duty.gear := 4, duty.load := .towing }
     let t := after (.restoreStepEnd false) s
     t.inputs.eng = ⟨.stalled, none, none, 0⟩ ∧ t.inputs.supply = .normal ∧ t.inputs.outRemainder = 0 ∧
      t.duty.gear = 0 ∧ t.duty.load = .unladen) := by decide +kernel

/-- No area readable, and area 0 with an image whose check word is wrong. -/
theorem witness_BlankStart :
    (State.reset.clock.power = .restore ∧ ∀ a : Area, State.reset.store.areas.get a = .unreadable) ∧
    (let bad : Image := { dozing.retained 7 with check := (dozing.retained 7).checkWord + 1 }
     let s := { State.reset with store.areas.a0 := .image bad }
     s.clock.power = .restore ∧ s.store.areas.get 0 = .image bad ∧
      bad.check ≠ crc16 (Config.imageBytes bad.toImageFields)) :=
  ⟨by decide, rfl, rfl, Nat.succ_ne_self _⟩

/-- A settle step that ends with a commit idle, and with one that a SUPPLY_WARNING of the step has in flight. -/
theorem witness_SettleEndDecides :
    (let s := { dozing with clock.power := .settle }
     s.clock.power = .settle ∧ s.store.commit = .idle ∧
      (after (.meterTick 100000) s).clock.power = .settle ∧ (after (.meterTick 100000) s).store.commit.code = 1) := by
  decide +kernel

/-- Asleep, awake to be and not; each polarity; the checkpoint due at exactly its period of 60 s, and 1 s before. -/
theorem witness_WakeFollowsItsSource :
    (let s := { dozing with clock.power := .sleep }
     s.clock.power = .sleep ∧ s.clock.waking = false ∧ s.config.armed.ign.polarity = .activeHigh ∧
      (after (.wakeSource (.ignPin true)) s).clock.waking = true ∧
      (after (.wakeSource (.ignPin false)) s).clock.waking = false ∧
      s.config.armed.timing.checkpointS = s.clock.time.seconds - 40 ∧ s.store.lastStart = some ⟨40, 0⟩) ∧
    (let s := { dozing with clock.power := .sleep, config.armed.crk.polarity := .activeLow }
     (after (.wakeSource (.crkPin false)) s).clock.waking = true ∧
      (after (.wakeSource (.crkPin true)) s).clock.waking = false) ∧
    ¬ dozing.clock.power = .sleep := by decide

/-- ENG reaches its stall time of 200 ms exactly, which is no more than it; meter time at its top and below it; a sleep
that the doze expiry of this instant has set pending; a report that a tally caught up forms, and that starts at once. -/
theorem witness_TimePasses :
    (let s := { driving .ready .idle with inputs.captureUs := 199000 }
     s.ticking = true ∧ nothingDue s = true ∧ min (199000 + (min 1000 3999 - s.inputs.tickUs) - 0) 16777215 ≤
        (s.config.armed.channel .eng).stallMs * 1000 ∧ s.inputs.eng.lastEdge = some 0 ∧
        s.inputs.inp.lastEdge = some 0 ∧ s.inputs.out.st = .stalled) ∧
    ({ dozing with clock.time := ⟨4294967295, 249⟩, clock.phase := 24 } : State).ticking = true ∧
    (let s := after .dozeTimerExpiry { dozing with clock.dozeDue := true }
     nothingDue s = true ∧ s.clock.sleep.any (·.justSet) = true) ∧
    (let s := { streaming 1 none 0 with clock.tallyDue := true }
     s.ticking = true ∧ ((passTime 1 s).link.tx.map (·.source)) = some .report) := by decide +kernel

/-- An ENG edge 99 µs after the last, a falling transition on a rising setting, and an OUT edge in SLEEP. -/
theorem witness_EdgesAreRejectedOrCountedAsleep :
    (let s := { driving .ready .idle with inputs.captureUs := 0 }
     let now := passTo 99 s
     s.ticking = true ∧ (now.config.armed.channel .eng).edge = .rising ∧ now.inputs.eng.lastEdge = some 0 ∧
      min (now.inputs.captureUs - 0) 16777215 < (now.config.armed.channel .eng).minInterval) ∧
    (let s := { dozing with clock.power := .sleep }
     let now := passTo 0 s
     s.ticking = true ∧ now.clock.power = .sleep ∧ now.config.armed.chOut.sees .rising = true ∧
      now.inputs.out.accepts now.config.armed.chOut now.inputs.captureUs = true) := by decide +kernel

/-- An ENG edge exactly the minimum interval of 100 µs after the last; the first edge of OUT, which is STALLED; an OUT
edge at the instant of the doze expiry that has just set a sleep pending, and one at a later instant. -/
theorem witness_EdgesAreAccepted :
    (let s := { driving .ready .idle with inputs.captureUs := 0 }
     let now := passTo 100 s
     s.ticking = true ∧ now.sensing = true ∧ (now.config.armed.channel .eng).sees .rising = true ∧
      now.inputs.eng.lastEdge = some 0 ∧
      (now.config.armed.channel .eng).minInterval ≤ min (now.inputs.captureUs - 0) 16777215 ∧
      now.inputs.out.st = .stalled ∧ now.inputs.out.lastEdge = none ∧
      now.inputs.outRemainder + 1 = now.config.armed.chOut.ep) ∧
    (let s := after .dozeTimerExpiry { dozing with clock.dozeDue := true }
     s.clock.sleep.any (·.justSet) = true ∧ (passTo 0 s).clock.sleep.any (·.justSet) = true ∧
      (passTo 1 s).clock.sleep.any (·.justSet) = false) := by decide +kernel

/-- The stall at exactly 200 ms, and 1 µs before. -/
theorem witness_ChannelsStall :
    (let s := { driving .ready .idle with inputs.captureUs := 199999 }
     s.ticking = true ∧ (passTo 1 s).inputs.eng.lastEdge = some 0 ∧ (passTo 1 s).inputs.eng.st ≠ .stalled ∧
      (passTo 1 s).sensing = true ∧
      (s.config.armed.channel .eng).stallMs * 1000 ≤ min ((passTo 1 s).inputs.captureUs - 0) 16777215 ∧
      min ((passTo 0 s).inputs.captureUs - 0) 16777215 < (s.config.armed.channel .eng).stallMs * 1000) := by
  decide +kernel

/-- E at the run speed of 500, one below it, at the stall speed of 250 and one below it. -/
theorem witness_EngineFollowsItsSpeed :
    (let at_ := fun (e : Engine) (v : Nat) => ({ driving e .idle with inputs.eng.speed := v } : State)
     (at_ .ready 500).duty.engine = .ready ∧ 500 ≤ (at_ .ready 500).inputs.eng.speed ∧
      (at_ .ready 500).inputs.crk.level = false ∧ (at_ .confirming 499).inputs.eng.speed < 500 ∧
      (at_ .running 249).inputs.eng.speed < (at_ .running 249).config.armed.engine.stallSpeed ∧
      (at_ .runDown 249).inputs.eng.speed < 250 ∧ 250 ≤ (at_ .runDown 250).inputs.eng.speed ∧
      (at_ .off 0).duty.engine = .off ∧ (at_ .confirming 500).config.armed.engine.runSpeed ≤ 500) ∧
    (let starter := { driving .running .locked with inputs.crk.level := true, inputs.eng.speed := 249 }
     starter.inputs.crk.level = true ∧ (enterReady starter).duty.engine = .cranking ∧
      (enterReady (driving .confirming .slipping)).duty.engine = .confirming ∧
      (enterReady { starter with inputs.crk.level := false }).duty.engine = .ready) := by decide

/-- A slip of exactly the tolerance, 40 rpm, and of 41; the pedal going down and up; RVS. -/
theorem witness_ClutchFollowsSlipAndPedal :
    (let near := { driving .running .slipping with inputs.inp.speed := 1460 }
     let far := { driving .running .locked with inputs.inp.speed := 1459 }
     near.duty.clutch = .slipping ∧ near.slip ≤ near.config.armed.clutch.tolerance ∧ far.duty.clutch = .locked ∧
      far.config.armed.clutch.tolerance < far.slip ∧ near.awake = true) ∧
    (let down := { driving .running .locked with inputs.clu.changeDue := true }
     let up := { driving .running .opened with inputs.clu.changeDue := true, inputs.clu.level := true }
     down.awake = true ∧ down.inputs.clu.changeDue = true ∧ down.inputs.clu.level = false ∧
      down.duty.clutch = .locked ∧ up.inputs.clu.level = true ∧ up.duty.clutch = .opened ∧ up.inputs.clu.changeDue = true) ∧
    ({ dozing with inputs.rvs.changeDue := true, inputs.clu.changeDue := true } : State).inputs.rvs.changeDue = true ∧
    dozing.duty.clutch = .idle := by decide

theorem witness_LinesAreSampled :
    dozing.awake = true ∧ dozing.inputs.ign.changeDue = false ∧ dozing.inputs.ign.level = false ∧
      dozing.config.armed.ign.polarity = .activeHigh ∧
      ({ dozing with inputs.ign.count := 49 } : State).inputs.ign.count + 1 = dozing.config.armed.ign.debounceMs ∧
      ({ dozing with clock.power := .settle } : State).clock.power = .settle ∧ State.reset.sensing = false := by decide

/-- IGN on from OFF and from RUN_DOWN at and below the stall speed; IGN off with a hire that the policy closes, with one
it does not close, and with none. -/
theorem witness_IgnitionChanges :
    (let on := fun (e : Engine) (v : Nat) =>
        ({ driving e .idle with clock.power := .doze, inputs.ign.level := false, inputs.ign.changeDue := true, inputs.eng.speed := v } : State)
     (on .off 0).awake = true ∧ (on .off 0).inputs.ign.changeDue = true ∧ (on .off 0).inputs.ign.level = false ∧
      250 ≤ (on .runDown 250).inputs.eng.speed ∧ (on .runDown 249).inputs.eng.speed < 250 ∧
      (on .off 0).duty.engine = .off ∧ (on .runDown 250).duty.engine = .runDown ∧
      (on .ready 0).duty.engine ≠ .off ∧ (on .ready 0).duty.engine ≠ .runDown) ∧
    (let off := hired { driving .running .locked with inputs.ign.changeDue := true }
     off.awake = true ∧ off.inputs.ign.changeDue = true ∧ off.inputs.ign.level = true ∧
      off.hires.current = some anyHire ∧ off.config.armed.policy.closes anyHire.cls = true ∧
      off.config.armed.policy.closes .customer = false ∧ off.hires.history.length < 32 ∧
      (driving .running .locked).hires.current = none) := by decide

theorem witness_StarterChanges :
    (let s := fun (e : Engine) (l : Bool) =>
        ({ driving e .idle with inputs.crk.changeDue := true, inputs.crk.level := l } : State)
     (s .ready false).awake = true ∧ (s .ready false).inputs.crk.changeDue = true ∧
      (s .ready false).inputs.crk.level = false ∧ (s .ready false).duty.engine = .ready ∧
      (s .running false).duty.engine = .running ∧ (s .confirming false).duty.engine = .confirming ∧
      (s .cranking true).inputs.crk.level = true ∧ 500 ≤ (s .cranking true).inputs.eng.speed ∧
      (s .off true).duty.engine = .off ∧ (s .running true).inputs.crk.level = true ∧
      ({ s .cranking true with inputs.eng.speed := 499 } : State).inputs.eng.speed < 500) := by decide

/-- The last tick of the doze timer, of a second's tally phase and of a blink period; a doze timer that runs beside a
sleep of origin REQUEST, and one that a doze expiry holds; no area usable; SLEEP. -/
theorem witness_TickCountsTheTimers :
    (let s := { dozing with clock.doze := some 1, clock.phase := 24, inputs.tickUs := 3999 }
     s.ticking = true ∧ nothingDue s = true ∧ shaftsStill s = true ∧ s.clock.doze = some 1 ∧ s.sensing = true) ∧
    (let s := { readyToSleep with store.usable := Four.all false }
     nothingDue s = true ∧ s.clock.sleep.any (·.timerHeld) = true ∧ s.store.anyUsable = false ∧ s.sensing = true) ∧
    (let s := { dozing with clock.sleep := some ⟨.request, .reply, false, false⟩ }
     nothingDue s = true ∧ s.clock.sleep.any (·.timerHeld) = false) ∧
    (let s := { dozing with clock.power := .sleep }
     s.ticking = true ∧ nothingDue s = true ∧ shaftsStill s = true ∧ s.sensing = false) ∧
    (let s := { dozing with table.lamp1.mode := .blink, table.lamp1.phase := 249 }
     nothingDue s = true ∧ (s.table.lamp .lamp1).mode = .blink) := by decide +kernel

/-- 5,499 and 5,500 mV, in WARNING 5,999 and 6,000; a tick while awake; the checkpoint at exactly its period. -/
theorem witness_SupplyAndCheckpointAreTested :
    dozing.inputs.supply = .normal ∧ ({ dozing with inputs.supply := .warning } : State).inputs.supply = .warning ∧
      5499 < 5500 ∧ 5999 < 6000 ∧ dozing.ticking = true ∧ (passTime (4000 - dozing.inputs.tickUs) dozing).sensing = true ∧
      ({ dozing with clock.secondStep := true } : State).awake = true ∧
      dozing.config.armed.timing.checkpointS = dozing.clock.time.seconds - 40 := by decide +kernel

theorem witness_DozeLeadsToSleep :
    (let s := { dozing with clock.dozeDue := true }
     s.clock.dozeDue = true ∧ s.inputs.ign.level = false ∧ s.duty.engine = .off ∧ s.inputs.crk.level = false ∧
      s.inputs.out.st = .stalled ∧ s.clock.sleep = none) ∧
    (let s := { readyToSleep with clock.dozeDue := true }
     s.clock.dozeDue = true ∧ s.clock.sleep ≠ none ∧ s.clock.sleep = some ⟨.dozeExpiry, .ready, true, false⟩ ∧
      s.sleepConditions = true ∧ s.link.queue = [] ∧ s.store.commit = .idle) ∧
    ((committing readyToSleep).store.commit ≠ .idle ∧ (asked 0x01 [] readyToSleep).link.queue ≠ [] ∧
      ¬ (driving .ready .idle).inputs.ign.level = false ∧ dozing.clock.dozeDue = false) :=
  ⟨by decide, by decide, by rintro ⟨⟩, by rintro ⟨⟩, by decide, rfl⟩

/-- The forms of a SLEEP reply still held, as a cancellation finds them. -/
theorem witness_DozeLeadsToSleep_cancelled :
    readyToSleep.clock.sleep ≠ none ∧ dozing.clock.sleep = none ∧
      (let d : Deferred := ⟨0x41, 0x2A, ⟨90, 0⟩, .sleepOutcome, .sleepLive, .current, 0⟩
       d.form = .sleepOutcome ∧ d.after ≠ .sleepCancelled) := by decide

/-- A lamp in CHECK, one in BLINK and one in DARK; an item that ARM has changed, with the phase beyond its new period. -/
theorem witness_LampsFollowTheirTicks :
    ({ dozing with clock.lampCheck := some 0 } : State).clock.lampCheck = some 0 ∧ dozing.awake = true ∧
      State.reset.awake = false ∧ dozing.clock.lampCheck ≠ some 0 ∧ (dozing.table.lamp .lamp2).mode ≠ .blink ∧
    (let s := { dozing with table.lamp1 := ⟨.blink, 125, true⟩, table.slots.s0.advisory := true }
     (s.table.lamp .lamp1).mode = .blink ∧ ((formLamps s).table.lamp .lamp1).mode = .blink ∧
      (s.table.lamp .lamp1).lit ≠ decide ((s.table.lamp .lamp1).phase < (s.config.armed.lamp .lamp1).duty * 5) ∧
      ({ factorySettings with lamp1.period := 25 } : Settings).lamp .lamp1 ≠ s.config.armed.lamp .lamp1 ∧
      25 * 5 ≤ (s.table.lamp .lamp1).phase) ∧
    (let low := { dozing with config.armed.lamp1.polarity := .activeLow }
     dozing.clock.power = .doze ∧ State.reset.clock.power = .restore ∧ dozing.lampHigh .lamp1 = false ∧
      low.lampHigh .lamp1 = true ∧ { low with clock.power := .held }.lampHigh .lamp1 = false) := by decide +kernel

/-- The confirm timer after 250 ticks of 4 ms, and after 249; attempt numbers left and EXHAUSTED; no attempt open. -/
theorem witness_StartsAreConfirmed :
    (let s := pushed { driving .confirming .slipping with duty.confirmTimer := some 250 }
     s.duty.engine = .confirming ∧ s.duty.confirmTimer = some 250 ∧
      s.starts.attempt = some (newAttempt .push (driving .confirming .slipping)) ∧
      (s.config.armed.engine.confirmMs + 3) / 4 ≤ 250 ∧ 249 < (s.config.armed.engine.confirmMs + 3) / 4 ∧
      s.starts.next < 4294967296 ∧ 4294967296 ≤ ({ s with starts.next := 4294967296 } : State).starts.next) ∧
    dozing.starts.attempt = none := by decide +kernel

theorem witness_LockAndFreshnessExpire :
    (let s := { driving .running .slipping with duty.lockTimer := some 75 }
     s.duty.clutch = .slipping ∧ s.duty.lockTimer = some 75 ∧ (s.config.armed.clutch.lockMs + 3) / 4 ≤ 75 ∧
      74 < (s.config.armed.clutch.lockMs + 3) / 4) ∧
    ({ dozing with duty.fresh := true } : State).duty.fresh = true ∧ dozing.duty.freshTimer = 0 ∧
    dozing.duty.fresh = false := by decide

theorem witness_TallyDrainsAndCounts :
    (let s := hired { dozing with clock.tallyDue := true, inputs.outPending := 601 }
     s.awake = true ∧ s.clock.tallyDue = true ∧ s.hires.current = some anyHire) ∧ dozing.clock.tallyDue = false := by
  decide

/-- O at the minimum of 30 rpm and below it, RVS active; run counts that confirm and that do not. -/
theorem witness_GearIsTracked :
    (let s := { driving .running .locked with inputs.out.speed := 30, inputs.inp.speed := 181 }
     s.config.armed.shift.oMinimum ≤ s.inputs.out.speed ∧ s.inputs.rvs.level = false ∧ candidateGear s = 1 ∧
      candidateGear { s with inputs.rvs.level := true } = 7 ∧ candidateGear { s with inputs.out.speed := 29 } = 0 ∧
      (s.config.armed.shift.confirmMs + 99) / 100 = 5 ∧ s.duty.gear ≠ candidateGear s) ∧
    (∃ g, ((1 : Gear), some g) ∈ numberedGears factorySettings.gears ∧ g.nominal ≤ 181 * 1000 / 30 + g.tolerance ∧
      181 * 1000 / 30 ≤ g.nominal + g.tolerance) := by
  refine ⟨by decide, ⟨6150, 120⟩, by decide, by decide, by decide⟩

theorem witness_LawsChargeTheirQuantity :
    bandsPass factorySettings.bands = true ∧ bandOf factorySettings.bands 699 = 0 ∧
      bandOf factorySettings.bands 700 = 1 ∧ bandOf factorySettings.bands 12000 = 7 ∧
      factorySlots.s1.law = .hour ∧ factorySlots.s2.law = .slip ∧ factorySlots.s4.law = .rev ∧
      factorySlots.s3.law = .shift ∧ factorySlots.s0.law = .start ∧ factorySlots.s6.law = .none ∧
      (driving .running .slipping).duty.engine = .running ∧ (driving .running .slipping).duty.clutch = .slipping ∧
      dozing.duty.clutch ≠ .slipping := by decide

/-- A residue of 255 with 1 raw unit, at one below the top of the slot total and at the top; suspended and not; an
ADVISORY mark newly set, with its flag clear and with it set. -/
theorem witness_WearIsDelivered :
    (let m := { blankSlot with total := 4294967294, residue := 255 }
     m.frozen = false ∧ 0 < (m.residue + 1) / 256 ∧ m.total + (m.residue + 1) / 256 ≤ 4294967295 ∧
      4294967295 < { m with total := 4294967295 }.total + (m.residue + 1) / 256) ∧
    dozing.hires.current = none ∧ (hired dozing).hires.current = some anyHire ∧ anyHire.suspended = false ∧
    { anyHire with suspended := true }.suspended = true ∧
    (let s := { dozing with table.slots.s7.advisory := true }
     (dozing.table.slots.get 7).advisory = false ∧ (s.table.slots.get 7).advisory = true ∧
      (s.link.flags.get .slotAdvisory).set = none ∧
      ((raise .slotAdvisory (.index 0) s).link.flags.get .slotAdvisory).set.isSome = true) := by decide

/-- A commit idle with an area usable and with none, in flight, and in flight with another pending; a reply that waits
for it. -/
theorem witness_CommitsAreAskedFor :
    dozing.store.commit = .idle ∧ dozing.store.nextArea = some 0 ∧
      ({ dozing with store.usable := Four.all false } : State).store.nextArea = none ∧
      (committing dozing).store.commit = .inFlight ⟨0, dozing.snapshot 5, true⟩ ∧
      (askCommit (committing dozing)).store.commit = .inFlightPending ⟨0, dozing.snapshot 5, true⟩ ∧
      (let s := { dozing with store.usable := Four.all false }
       ((after .checkpoint (asked 0x40 [] s)).link.tx.map (·.frame.payload.head?)) =
        some (some (BitVec.ofNat 8 ReplyCode.doneNotRetained.code))) :=
  ⟨rfl, rfl, rfl, rfl, rfl, by decide +kernel⟩

/-- In flight, and in flight with another pending; a failure that leaves areas and one that leaves none; under the hold
and not; a sleep pending that waits for the completion. -/
theorem witness_CommitsEnd :
    (let s := committing dozing
     s.store.commit = (if false then .inFlightPending ⟨0, dozing.snapshot 5, true⟩
        else .inFlight ⟨0, dozing.snapshot 5, true⟩) ∧
      (askCommit s).store.commit = (if true then .inFlightPending ⟨0, dozing.snapshot 5, true⟩
        else .inFlight ⟨0, dozing.snapshot 5, true⟩) ∧
      (s.store.usable.set 0 false).toList.any id = true ∧ s.clock.hold = false ∧
      (({ s with store.usable := Four.all false } : State).store.usable.set 0 false).toList.any id = false ∧
      ({ s with clock.hold := true } : State).clock.hold = true ∧
      ({ s with clock.sleep := some ⟨.dozeExpiry, .commit .current, true, false⟩ } : State).clock.sleep =
        some ⟨.dozeExpiry, .commit .current, true, false⟩) :=
  ⟨rfl, rfl, by decide, rfl, by decide, rfl, rfl⟩

/-- Nothing ready; a notice; and, with the line busy, an IDENTIFY answered at once and a completion at the same instant,
whose CHECKPOINT was taken first and goes first. -/
theorem witness_ArbiterPicksTheNextFrame :
    dozing.link.tx = none ∧ dozing.awake = true ∧ dozing.clock.hold = false ∧ dozing.link.ready = [] ∧
      dozing.link.report = none ∧ State.reset.awake = false ∧
    (let s := raise .slotDue (.index 2) dozing
     (s.link.flags.get .slotDue).notice = true ∧
      (s.link.flags.get .slotDue).set = some ⟨.index 2, ⟨100, 0⟩⟩ ∧ (s.link.flags.get .slotAdvisory).notice = false ∧
      (s.link.flags.get .startLogged).notice = false) ∧
    (let busy := { dozing with link.tx := some ⟨.report, ⟨0x61, 0, []⟩⟩ }
     let s := after (.commitComplete .verified) (after .identify (asked 0x01 [] (after .checkpoint (asked 0x40 [] busy))))
     s.link.ready.map (·.kind) = [0x01, 0x40] ∧
      (after .transmitComplete s).link.tx.map (·.frame.kind) = some 0xC0) := by decide +kernel

theorem witness_TransmissionsEnd :
    (let s := fun (a : AfterReply) => ({ dozing with link.tx := some ⟨.reply a, ⟨0x81, 0, []⟩⟩ } : State)
     (s .startUp).link.tx = some ⟨.reply .startUp, ⟨0x81, 0, []⟩⟩ ∧
      (({ s .sleepLive with clock.sleep := some ⟨.request, .reply, false, false⟩ } : State).clock.sleep) =
        some ⟨.request, .reply, false, false⟩ ∧
      (TxSource.reply .nothing ≠ .reply .startUp ∧ TxSource.reply .nothing ≠ .reply .sleepLive)) := by decide

theorem witness_FlagsAreRaisedMaskedAndCleared :
    (dozing.link.flags.get .slotDue).set = none ∧
      ((raise .slotDue (.index 2) dozing).link.flags.get .slotDue).set.isSome = true ∧
      (let s := asked 0x48 (bytesOf 2 65535) dozing
       s.link.queue = [⟨0x48, 0x2A, bytesOf 2 65535⟩] ∧ s.awake = true ∧ s.link.restartTaken = false ∧
        s.link.entries < 4) ∧
      Nat.testBit 65535 12 = true ∧ Nat.testBit 65535 16 = false := by decide

/-- Awake, asleep, starting up; and the end of a settle step with a commit in flight. -/
theorem witness_AttnFollowsTheFlags :
    dozing.clock.power = .doze ∧ State.reset.clock.power = .restore ∧ (after .resetnLow dozing).clock.power = .held ∧
      (let s := after (.meterTick 100000) { dozing with clock.power := .settle }
       s.clock.power = .settle ∧ (∀ f ∈ allFlags, (s.link.flags.get f).enabled = true) ∧ s.store.commit.code = 1 ∧
        (after .settleEnd s).attnLow = true) := by decide +kernel

theorem witness_FramesWaitOrAreUnknown :
    kindOfRequest .identify = some 0x01 ∧ dozing.link.queue = [] ∧ (asked 0x09 [] dozing).awake = true ∧
      requestOfKind 0x7F = none ∧ (0x7F : Byte).toNat < 0x80 ∧ 0x80 ≤ (0x80 : Byte).toNat ∧
      (asked 0x80 [] dozing).link.queue = [⟨0x80, 0x2A, []⟩] ∧ (asked 0x80 [] dozing).link.entries < 4 ∧
      (requestOfKind 0x4A).isSome = true ∧ State.reset.awake = false ∧
      ({ dozing with link.restartTaken := true } : State).link.restartTaken = true ∧
      4 ≤ ({ dozing with link.ready := List.replicate 4 ⟨0x01, 0, .done, ⟨0, 0⟩, [], .nothing, 0, 0⟩ } : State).link.entries := by
  decide

theorem witness_WrongLengthIsRefused :
    (asked 0x10 [0, 0, 0] dozing).link.queue = [⟨0x10, 0x2A, [0, 0, 0]⟩] ∧ dozing.awake = true ∧
      dozing.link.restartTaken = false ∧ dozing.link.entries < 4 ∧ ([0, 0, 0] : List Byte).length ≠ 4 := by decide

theorem witness_StreamIsSetAndReports :
    (streaming 2 none 0).link.stream = some ⟨2, none, 0⟩ ∧ 0 + 1 < 2 ∧ (streaming 2 none 1).link.stream = some ⟨2, none, 1⟩ ∧
      2 ≤ 1 + 1 ∧ (streaming 1 (some 2) 0).link.stream = some ⟨1, some (0 + 2), 0⟩ ∧
      (streaming 1 (some 1) 0).link.stream = some ⟨1, some 1, 0⟩ ∧
      (asked 0x4A (bytesOf 2 600 ++ bytesOf 2 0) dozing).link.queue = [⟨0x4A, 0x2A, bytesOf 2 600 ++ bytesOf 2 0⟩] ∧
      (dozing.link.entries < 4 ∧ dozing.awake = true ∧ dozing.link.restartTaken = false) := by decide

/-- The requests whose hypotheses are a frame at the head: it is there and can be taken, with no payload. -/
theorem witness_atHead (kind : Byte) (payload : List Byte) :
    atHead kind ⟨kind, 0x2A, payload⟩ [] (asked kind payload dozing) :=
  ⟨rfl, rfl, rfl, rfl, show 0 < 4 by decide⟩

theorem witness_IdentityStatusAndIdlePoolAreRead :
    atHead 0x01 ⟨0x01, 0x2A, []⟩ [] (asked 0x01 [] dozing) ∧ atHead 0x02 ⟨0x02, 0x2A, [0]⟩ [] (asked 0x02 [0] dozing) ∧
      atHead 0x08 ⟨0x08, 0x2A, []⟩ [] (asked 0x08 [] dozing) :=
  ⟨witness_atHead _ _, witness_atHead _ _, witness_atHead _ _⟩

/-- READ_SLOT and the indices at 7 and 8, a hire open and none. -/
theorem witness_RecordsAreRead :
    atHead 0x04 ⟨0x04, 0x2A, []⟩ [] (asked 0x04 [] dozing) ∧ atHead 0x05 ⟨0x05, 0x2A, []⟩ [] (asked 0x05 [] (hired dozing)) ∧
      atHead 0x03 ⟨0x03, 0x2A, [7]⟩ [] (asked 0x03 [7] dozing) ∧ 7 < (8 : Byte).toNat ∧
      (7 : Slot).val = (7 : Byte).toNat ∧ (hired dozing).hires.current = some anyHire ∧ dozing.hires.current = none ∧
      atHead 0x06 ⟨0x06, 0x2A, [31]⟩ [] (asked 0x06 [31] dozing) ∧ atHead 0x32 ⟨0x32, 0x2A, [32]⟩ [] (asked 0x32 [32] dozing) :=
  ⟨witness_atHead _ _, ⟨rfl, rfl, rfl, rfl, by decide⟩, witness_atHead _ _, by decide, rfl, rfl, rfl, witness_atHead _ _,
    witness_atHead _ _⟩

/-- The highest key, the last number and the EXHAUSTED ones. -/
theorem witness_HiresAreOpened :
    atHead 0x10 ⟨0x10, 0x2A, bytesOf 4 4294967295⟩ [] (asked 0x10 (bytesOf 4 4294967295) dozing) ∧
      4294967295 < 4294967296 ∧ dozing.config.staging = none ∧ (inSetup dozing).config.staging.isSome = true ∧
      ({ dozing with hires.next := 4294967295 } : State).hires.next < 4294967296 ∧
      4294967296 ≤ ({ dozing with hires.next := 4294967296 } : State).hires.next :=
  ⟨witness_atHead _ _, by decide, rfl, rfl, by decide, by decide⟩

theorem witness_HireClassIsDecided :
    ({ factorySettings with policy.forced := some .staff } : Settings).policy.forced = some .staff ∧
      factorySettings.policy.forced = none ∧
      (let k : KeyClass := ⟨true, 0x5A000000, 0, none, .staff⟩
       k.enabled = true ∧ 5 / 2 ^ (32 - k.prefixLength) = k.base / 2 ^ (32 - k.prefixLength)) ∧
      (∀ i : Fin 8, (factorySettings.keys.get i).enabled = false) := by decide

theorem witness_ClosedHiresJoinTheHistory :
    (dozing.link.flags.get .historyMerged).set = none ∧ (dozing.link.flags.get .historyNearFull).set = none ∧
      ((raise .historyMerged .none dozing).link.flags.get .historyMerged).set.isSome = true ∧
    (hired dozing).hires.current = some anyHire ∧ (hired dozing).hires.history.length < 32 ∧
      (List.replicate 32 (summary 1 0 .mixed)).length = 32 ∧ (List.replicate 23 (summary 1 0 .mixed)).length = 23 := by
  decide

theorem witness_MergedPairIsChosen :
    (let a := summary 1 5 (.one .staff)
     let b := summary 2 6 (.one .staff)
     (a.cls = b.cls ∧ a.cls ≠ .one .customer) ∧ pairToMerge ([] ++ a :: b :: []) = 0) ∧
    (let a := summary 1 5 (.one .customer)
     let b := summary 2 5 (.one .customer)
     (a.cls = .one .customer ∧ b.cls = .one .customer ∧ a.keyId = b.keyId) ∧
      pairToMerge ([summary 0 7 .mixed] ++ a :: b :: []) = 1) := by decide

theorem witness_HiresAreClosedSuspendedAndResumed :
    atHead 0x11 ⟨0x11, 0x2A, []⟩ [] lawful ∧ lawful.hires.current = some anyHire ∧
      atHead 0x13 ⟨0x13, 0x2A, []⟩ [] (asked 0x13 [] dozing) ∧ anyHire.suspended = false ∧
      atHead 0x12 ⟨0x12, 0x2A, []⟩ [] (asked 0x12 [] (hired dozing)) :=
  ⟨⟨rfl, rfl, rfl, rfl, by decide⟩, rfl, witness_atHead _ _, rfl, ⟨rfl, rfl, rfl, rfl, by decide⟩⟩

theorem witness_AccountsAreReleased :
    (let s := { asked 0x14 (bytesOf 4 2) dozing with
        hires.history := [summary 1 5 .mixed, summary 2 5 .mixed] ++ [summary 3 5 .mixed] }
     atHead 0x14 ⟨0x14, 0x2A, bytesOf 4 2⟩ [] s) ∧
    (∀ m ∈ [summary 1 5 .mixed, summary 2 5 .mixed], m.last ≤ 2) ∧
    (∀ m, [summary 3 5 .mixed].head? = some m → 2 < m.last) ∧
    [summary 1 5 .mixed, summary 2 5 .mixed].getLast? = some (summary 2 5 .mixed) ∧
    atHead 0x15 ⟨0x15, 0x2A, []⟩ [] (asked 0x15 [] dozing) :=
  ⟨⟨rfl, rfl, rfl, rfl, by decide⟩, by decide, fun m h => by cases h; decide, rfl, witness_atHead _ _⟩

/-- TOWING with 32,767 and with -32,768 degrees, no temperature, a presence of 2, a load of 3; the slots 7 and 8. -/
theorem witness_ConditionsServicesAndUnitsAreRecorded :
    atHead 0x18 ⟨0x18, 0x2A, [2, 1] ++ bytesOf 2 32768⟩ [] (asked 0x18 ([2, 1] ++ bytesOf 2 32768) dozing) ∧
      32768 < 65536 ∧ LoadState.towing.code = (2 : Byte).toNat ∧ 2 < (3 : Byte).toNat ∧ 1 < (2 : Byte).toNat ∧
      atHead 0x20 ⟨0x20, 0x2A, [7]⟩ [] (asked 0x20 [7] dozing) ∧ (7 : Slot).val = (7 : Byte).toNat ∧ 7 < (8 : Byte).toNat ∧
      atHead 0x21 ⟨0x21, 0x2A, 7 :: bytesOf 4 4294967295⟩ [] (asked 0x21 (7 :: bytesOf 4 4294967295) dozing) :=
  ⟨witness_atHead _ _, by decide, rfl, by decide, by decide, witness_atHead _ _, rfl, by decide, witness_atHead _ _⟩

/-- SET_ITEM: no payload, item 32 and no item 33, a length too short, a code outside its values, a stored item, a value
beyond its range. -/
theorem witness_StagingIsEdited :
    atHead 0x30 ⟨0x30, 0x2A, []⟩ [] (asked 0x30 [] dozing) ∧ atHead 0x31 ⟨0x31, 0x2A, [11, 0, 40, 1]⟩ [] (asked 0x31 [11, 0, 40, 1] (inSetup dozing)) ∧
      dozing.config.staging = none ∧ (inSetup dozing).config.staging = some factorySettings ∧
      itemOfId 33 = none ∧ itemOfId 11 = some .clutch ∧ ([0, 40, 1] : List Byte).length ≠ ItemId.clutch.length ∧
      (∃ vs v, splitFields ItemId.clutch.widths [0, 40, 1, 44] = some vs ∧ itemOfFields .clutch vs = some v) ∧
      (∃ vs, splitFields (ItemId.line .ign).widths [2, 0, 50] = some vs ∧ itemOfFields (.line .ign) vs = none) ∧
      atHead 0x31 ⟨0x31, 0x2A, []⟩ [] (asked 0x31 [] (inSetup dozing)) ∧
      itemOfFields .clutch [501, 49] = some (.clutch ⟨500, 50⟩) ∧
      (Law.shift.code = 5 ∧ (⟨true, true, true, true⟩ : Conditions).code = 15 ∧ HireClass.workshop.code = 2) :=
  ⟨witness_atHead _ _, ⟨rfl, rfl, rfl, rfl, by decide⟩, rfl, rfl, rfl, rfl, by decide, ⟨_, _, rfl, rfl⟩, ⟨_, rfl, rfl⟩,
    ⟨rfl, rfl, rfl, rfl, by decide⟩, by decide, by decide⟩

/-- Sets that fail at each of the four items and one that differs from the armed set and passes; a channel, a confirm
timer and a lock timer to which a changed item applies. -/
theorem witness_StagingIsArmed :
    firstFailing { factorySettings with bands.s0 := 1 } = some 8 ∧ firstFailing { factorySettings with gears.e2 := none } = some 9 ∧
      firstFailing { factorySettings with engine.stallSpeed := 500 } = some 10 ∧
      firstFailing { factorySettings with conditions.hotLimit := 20 } = some 20 ∧
      firstFailing { factorySettings with engine.stallSpeed := 499 } = none ∧
      { factorySettings with engine.stallSpeed := 499 } ≠ factorySettings ∧
      (let s := { pushed (driving .confirming .slipping) with
        duty.confirmTimer := some 25, duty.lockTimer := some 13,
        config.armed.engine.confirmMs := 100, config.armed.clutch.lockMs := 50, config.armed.chEng.stallMs := 40 }
       (takeStall .eng false s).inputs.eng.st = .stalled ∧ (rearmTimers factorySettings s).duty.engine = .running ∧
        (rearmTimers factorySettings s).duty.clutch = .locked) ∧
      atHead 0x33 ⟨0x33, 0x2A, []⟩ [] (asked 0x33 [] (inSetup dozing)) :=
  ⟨by decide, by decide, by decide, by decide, by decide, by decide, by decide +kernel, ⟨rfl, rfl, rfl, rfl, by decide⟩⟩

theorem witness_AccountsAreCleared :
    atHead 0x36 ⟨0x36, 0x2A, []⟩ [] (asked 0x36 [] (inSetup dozing)) ∧ (inSetup dozing).config.staging.isSome = true ∧
      dozing.config.staging = none ∧ dozing.inputs.ign.level = false ∧ (driving .ready .idle).inputs.ign.level = true :=
  ⟨⟨rfl, rfl, rfl, rfl, by decide⟩, rfl, rfl, rfl, rfl⟩

theorem witness_CheckpointSleepAndRestart :
    atHead 0x40 ⟨0x40, 0x2A, []⟩ [] (asked 0x40 [] dozing) ∧ atHead 0x41 ⟨0x41, 0x2A, []⟩ [] (asked 0x41 [] dozing) ∧
      atHead 0x42 ⟨0x42, 0x2A, []⟩ [] (asked 0x42 [] dozing) ∧ dozing.inputs.ign.level = false ∧ dozing.duty.engine = .off ∧
      dozing.inputs.crk.level = false ∧ dozing.inputs.out.st = .stalled ∧ dozing.link.ready = [] ∧
      dozing.link.deferred = [] ∧ dozing.link.tx = none ∧ (driving .ready .idle).inputs.ign.level = true :=
  ⟨witness_atHead _ _, witness_atHead _ _, witness_atHead _ _, rfl, rfl, rfl, rfl, rfl, rfl, rfl, rfl⟩

end Sys2Proof.Tests
end

namespace Sys2Proof

/-! ## Searching a row of eight from index 0 upwards -/

theorem Eight.toList_eq_ofFn {α : Type} (e : Eight α) : e.toList = List.ofFn e.get := rfl

/-- The search ends at the first index whose entry passes the test. -/
theorem Eight.find?_toList_of_first {α : Type} {p : α → Bool} {e : Eight α} {i : Fin 8}
    (hit : p (e.get i) = true) (first : ∀ j < i, ¬ p (e.get j) = true) :
    e.toList.find? p = some (e.get i) := by
  rw [Eight.toList_eq_ofFn, List.find?_eq_some_iff_getElem]
  refine ⟨hit, i.val, List.length_ofFn.symm ▸ i.isLt, List.getElem_ofFn _, fun j hj => ?_⟩
  rw [List.getElem_ofFn, Bool.not_eq_true']
  exact Bool.eq_false_iff.mpr (first ⟨j, hj.trans i.isLt⟩ hj)

theorem Eight.find?_toList_eq_none_iff {α : Type} {p : α → Bool} {e : Eight α} :
    e.toList.find? p = none ↔ ∀ k, ¬ p (e.get k) = true := by
  rw [Eight.toList_eq_ofFn, List.find?_eq_none, List.forall_mem_ofFn_iff]

namespace Machine

/-! ## The class decision (R107) -/

theorem prefixEqual_iff {bits a b : Nat} :
    prefixEqual bits a b = true ↔ a / 2 ^ (32 - bits) = b / 2 ^ (32 - bits) :=
  beq_iff_eq

/-- An entry matches a key id on its base or, where it has one, on its alternate base. -/
theorem KeyClass.hits_iff (k : KeyClass) (key : Nat) :
    k.hits key = true ↔ k.enabled = true ∧
      (key / 2 ^ (32 - k.prefixLength) = k.base / 2 ^ (32 - k.prefixLength) ∨
        ∃ b, k.alternate = some b ∧ key / 2 ^ (32 - k.prefixLength) = b / 2 ^ (32 - k.prefixLength)) := by
  cases alt : k.alternate with
  | none => simp [KeyClass.hits, prefixEqual_iff, alt]
  | some b => simp [KeyClass.hits, prefixEqual_iff, alt]

theorem decideClass_of_forced {c : Settings} {x : HireClass} (key : Nat) (forced : c.policy.forced = some x) :
    decideClass c key = x := by
  simp only [decideClass, forced]

theorem decideClass_of_first_hit {c : Settings} {key : Nat} {i : Fin 8} (free : c.policy.forced = none)
    (hit : (c.keys.get i).hits key = true) (first : ∀ j < i, ¬ (c.keys.get j).hits key = true) :
    decideClass c key = (c.keys.get i).cls := by
  have found : c.keys.toList.find? (·.hits key) = some (c.keys.get i) := Eight.find?_toList_of_first hit first
  simp only [decideClass, free, found]

theorem decideClass_of_no_hit {c : Settings} {key : Nat} (free : c.policy.forced = none)
    (noHit : ∀ i, ¬ (c.keys.get i).hits key = true) : decideClass c key = .customer := by
  have notFound : c.keys.toList.find? (·.hits key) = none := Eight.find?_toList_eq_none_iff.mpr noHit
  simp only [decideClass, free, notFound]

/-- Settles O51: the statement's condition on an entry is `KeyClass.hits` (`KeyClass.hits_iff`), and the search of the
table stops at the first entry that meets it. -/
theorem hireClassIsDecided : Obligations.HireClassIsDecided := by
  unfold Obligations.HireClassIsDecided
  intro c key
  simp only [← KeyClass.hits_iff]
  exact ⟨fun _ forced => decideClass_of_forced key forced, fun free =>
    ⟨fun _ hit first => decideClass_of_first_hit free hit first, fun noHit => decideClass_of_no_hit free noHit⟩⟩

end Machine

end Sys2Proof

namespace Sys2Proof.Machine

/-! ## The pair to merge (R126) -/

section
variable {p : Summary → Summary → Bool}

/-- The search passes over an entry that makes no pair with the entry after it. -/
theorem firstPair_cons_of_no_pair {c : Summary} {h : List Summary} (skip : ∀ d t, h = d :: t → ¬ p c d = true) :
    firstPair p (c :: h) = (firstPair p h).map (· + 1) := by
  cases h with
  | nil => rfl
  | cons d t => rw [firstPair, if_neg (skip d t rfl)]

/-- The search ends at the first adjacent pair that passes the test. -/
theorem firstPair_of_first {a b : Summary} {pre post : List Summary} (hit : p a b = true)
    (first : ∀ l r x y, pre ++ a :: b :: post = l ++ x :: y :: r → l.length < pre.length → ¬ p x y = true) :
    firstPair p (pre ++ a :: b :: post) = some pre.length := by
  induction pre with
  | nil => exact if_pos hit
  | cons c pre ih =>
    have skip : ∀ d t, pre ++ a :: b :: post = d :: t → ¬ p c d = true := fun d t eq =>
      first [] t c d (congrArg (c :: ·) eq) (Nat.succ_pos _)
    have found : firstPair p (pre ++ a :: b :: post) = some pre.length := ih fun l r x y eq lt =>
      first (c :: l) r x y (congrArg (c :: ·) eq) (Nat.succ_lt_succ lt)
    rw [List.cons_append, firstPair_cons_of_no_pair skip, found, Option.map_some, List.length_cons]

theorem firstPair_eq_none {h : List Summary} (never : ∀ l r x y, h = l ++ x :: y :: r → ¬ p x y = true) :
    firstPair p h = none := by
  induction h with
  | nil => rfl
  | cons c h ih =>
    have skip : ∀ d t, h = d :: t → ¬ p c d = true := fun d t eq => never [] t c d (congrArg (c :: ·) eq)
    have notFound : firstPair p h = none := ih fun l r x y eq => never (c :: l) r x y (congrArg (c :: ·) eq)
    rw [firstPair_cons_of_no_pair skip, notFound, Option.map_none]

end

theorem sameStaffKind_iff {a b : Summary} :
    sameStaffKind a b = true ↔ a.cls = b.cls ∧ a.cls ≠ .one .customer := by
  simp only [sameStaffKind, Bool.and_eq_true, beq_iff_eq, bne_iff_ne]

theorem sameCustomer_iff {a b : Summary} :
    sameCustomer a b = true ↔ a.cls = .one .customer ∧ b.cls = .one .customer ∧ a.keyId = b.keyId := by
  simp only [sameCustomer, Bool.and_eq_true, beq_iff_eq, and_assoc]

theorem pairToMerge_of_kind {h : List Summary} {i : Nat} (found : firstPair sameStaffKind h = some i) :
    pairToMerge h = i := by
  simp only [pairToMerge, found]

theorem pairToMerge_of_no_kind {h : List Summary} (noKind : firstPair sameStaffKind h = none) :
    pairToMerge h = (firstPair sameCustomer h).getD 0 := by
  simp only [pairToMerge, noKind]

/-- Settles O53: the statement's two conditions on a pair are `sameStaffKind` and `sameCustomer`, and each of the two
searches ends at the first pair that meets its condition. -/
theorem mergedPairIsChosen : Obligations.MergedPairIsChosen := by
  unfold Obligations.MergedPairIsChosen
  intro pre post a b
  simp only [← sameStaffKind_iff, ← sameCustomer_iff]
  refine ⟨?kind, ?customer, ?oldest⟩
  case kind =>
    rintro ⟨hit, first⟩
    exact pairToMerge_of_kind (firstPair_of_first hit first)
  case customer =>
    rintro noKind ⟨hit, first⟩
    rw [pairToMerge_of_no_kind (firstPair_eq_none noKind), firstPair_of_first hit first, Option.getD_some]
  case oldest =>
    intro noKind noCustomer
    rw [pairToMerge_of_no_kind (firstPair_eq_none noKind), firstPair_eq_none noCustomer, Option.getD_none]

end Sys2Proof.Machine

namespace Sys2Proof.Machine

set_option Elab.async false

open Sys2Proof Sys2Proof.Safety

/-! ## Steps and the state after reset -/

/-- Settles O1: both clauses are the two branches of `step`. -/
theorem stepRunsTheFrontCommand : Obligations.StepRunsTheFrontCommand := by
  unfold Obligations.StepRunsTheFrontCommand
  refine ⟨fun s c rest queued => ?front, fun s empty => ?idle⟩
  case front => simp only [step, queued]
  case idle => simp only [step, empty]

/-- Settles O4: each law is a test, and it is evaluated on the one state after reset. -/
theorem lawsHoldAtReset : Obligations.LawsHoldAtReset := by
  unfold Obligations.LawsHoldAtReset
  decide

/-- What every command keeps is kept by a step: on an empty queue the step is the state itself, otherwise it is the front
command in the state with the queue's rest. -/
theorem step_keeps {P : State → Prop} (queue : ∀ s cs, P s → P { s with pending := cs })
    (command : ∀ c s t, P s → exec c s = .next t → P t) {s t : State} (h : P s) (next : step s = .next t) : P t := by
  unfold step at next
  split at next
  · cases next
    exact h
  · exact command _ _ _ (queue s _ h) next

/-- A law of the accounts is kept by a step. -/
theorem AccountLaw.step {A : Accounts → Prop} (L : AccountLaw A) {s t : State} (h : Kept A s)
    (next : step s = .next t) : Kept A t :=
  step_keeps (P := Kept A) (fun _ _ h => Kept.frame rfl rfl rfl h) (fun c s t h next => kept_exec L c s h t next) h next

/-! ## The wear that the accounts hold -/

theorem wearOf_get (ms : List Summary) (k : Slot) : (wearOf ms).get k = (ms.map fun m => m.wear.get k).sum := by
  induction ms with
  | nil => exact Eight.get_all 0 k
  | cons m ms ih => simp only [wearOf, List.foldr_cons, Eight.get_zip, List.map_cons, List.sum_cons, ← ih]

theorem wearOf_append_get (ms ns : List Summary) (k : Slot) :
    (wearOf (ms ++ ns)).get k = (wearOf ms).get k + (wearOf ns).get k := by
  simp only [wearOf_get, List.map_append, List.sum_append]

theorem wearOf_singleton_get (m : Summary) (k : Slot) : (wearOf [m]).get k = m.wear.get k := by
  simp only [wearOf_get, List.map_cons, List.map_nil, List.sum_cons, List.sum_nil, Nat.add_zero]

theorem addRecovery_get (a b : Option (Eight Nat)) (k : Slot) :
    ((addRecovery a b).getD zeroAccounts).get k =
      (a.getD zeroAccounts).get k + (b.getD zeroAccounts).get k := by
  cases a <;> cases b <;> simp [addRecovery, zeroAccounts]

theorem mergeSummaries_wear_get (a b : Summary) (k : Slot) :
    (mergeSummaries a b).wear.get k = a.wear.get k + b.wear.get k := by
  simp only [mergeSummaries, Summary.wear, Eight.get_zip, addRecovery_get]
  omega

/-- A merge keeps the wear of the history: the merged summary holds that of the pair. -/
theorem mergeAt_wear {n : Nat} {h : List Summary} {r : Summary × List Summary} (merged : mergeAt n h = some r)
    (k : Slot) : (wearOf r.2).get k = (wearOf h).get k := by
  simp only [wearOf_get]
  induction h generalizing n r with
  | nil => cases n <;> cases merged
  | cons a rest ih =>
    cases n with
    | zero =>
      cases rest with
      | nil => cases merged
      | cons b rest =>
        cases merged
        simp only [List.map_cons, List.sum_cons, mergeSummaries_wear_get]
        omega
    | succ n =>
      obtain ⟨q, found, rfl⟩ := Option.map_eq_some_iff.mp merged
      simp only [List.map_cons, List.sum_cons, ih found]

theorem appended_wear (h : List Summary) (m : Summary) (k : Slot) :
    (wearOf (appended h m)).get k = (wearOf h).get k + m.wear.get k := by
  unfold appended
  split
  · rw [wearOf_append_get, wearOf_singleton_get]
  · split
    next r merged => rw [wearOf_append_get, wearOf_singleton_get, mergeAt_wear merged]
    next => rw [wearOf_append_get, wearOf_singleton_get]

/-- The wear of a slot over every account but the slot total itself. -/
def Hires.wear (h : Hires) (k : Slot) : Nat :=
  h.settled.get k + h.idle.get k + (wearOf h.history).get k + (openWear h.current).get k

theorem openWear_onCurrent {f : HireRecord → HireRecord} (same : ∀ h, (f h).wear = h.wear) (h : Hires) (k : Slot) :
    (h.onCurrent f).wear k = h.wear k := by
  cases open_ : h.current <;> simp [Hires.wear, Hires.onCurrent, open_, openWear, same]

theorem creditTarget_wear (ws : Eight Nat) (h : Hires) (k : Slot) :
    (creditTarget ws h).wear k = h.wear k + ws.get k := by
  unfold creditTarget
  split
  next none_ => simp only [Hires.wear, none_, Eight.get_zip]; omega
  next r open_ =>
    by_cases susp : r.suspended = true <;>
      simp only [susp, if_true, if_false, Hires.wear, open_, openWear, HireRecord.wear, Eight.get_zip,
        Option.getD_some, Bool.false_eq_true] <;> omega

theorem closed_wear (h : Hires) (cause : CloseCause) (t : MeterTime) (k : Slot) :
    (h.closed cause t).wear k = h.wear k := by
  unfold Hires.closed
  split
  · rfl
  next r open_ =>
    have summary : (summaryOf r cause t).wear = r.wear := rfl
    simp only [Hires.wear, open_, openWear, appended_wear, summary, zeroAccounts, Eight.get_all]
    omega

theorem opened_wear {h : Hires} {r : HireRecord} (none_ : h.current = none) (main : r.main = zeroAccounts)
    (recovery : r.recovery = none) (k : Slot) : (h.opened r).wear k = h.wear k := by
  simp [Hires.wear, Hires.opened, none_, openWear, HireRecord.wear, main, recovery, zeroAccounts]

/-- The summaries that a release removes, and those that stay, make up the history. -/
theorem releasable_append_drop (n : Nat) (h : List Summary) :
    releasable n h ++ h.drop (releasable n h).length = h := by
  have whole : releasable n h ++ h.dropWhile (fun m => decide (m.last ≤ n)) = h := List.takeWhile_append_dropWhile
  calc releasable n h ++ h.drop (releasable n h).length
      = releasable n h ++
          (releasable n h ++ h.dropWhile fun m => decide (m.last ≤ n)).drop (releasable n h).length := by
        rw [whole]
    _ = h := by rw [List.drop_left, whole]

theorem releaseThrough_wear (n : Nat) (h : Hires) (k : Slot) : (releaseThrough n h).wear k = h.wear k := by
  unfold releaseThrough
  dsimp only
  split
  · rfl
  · have split_ : (wearOf h.history).get k =
        (wearOf (releasable n h.history)).get k +
          (wearOf (h.history.drop (releasable n h.history).length)).get k := by
      rw [← wearOf_append_get, releasable_append_drop]
    simp only [Hires.wear, Eight.get_zip, split_]
    omega

theorem releasePool_wear (h : Hires) (k : Slot) : (releasePool h).wear k = h.wear k := by
  simp only [releasePool, Hires.wear, Eight.get_zip, zeroAccounts, Eight.get_all]
  omega

theorem clearHires_wear {h : Hires} (none_ : h.current = none) (k : Slot) : (clearHires h).wear k = 0 := by
  simp [clearHires, Hires.wear, none_, openWear, zeroAccounts, wearOf]

/-! ## Conservation of wear (R119) -/

/-- What a slot's charge adds to its total is what it delivers (R75 to R78). -/
theorem chargeSlot_total (c : SlotSettings) (raw : Nat) (m : SlotMeters) :
    (chargeSlot c raw m).total = m.total + delivered raw m := by
  unfold chargeSlot delivered
  by_cases frozen : m.frozen = true
  · simp [frozen]
  · by_cases none_ : wholeIncrement m raw = 0
    · simp [frozen, none_]
    · by_cases full : m.total + wholeIncrement m raw > top32 <;> simp [frozen, none_, full, deliverSlot]

theorem total_add_delivered_le {m : SlotMeters} (within : m.total ≤ top32) (raw : Nat) :
    m.total + delivered raw m ≤ top32 := by
  unfold delivered
  dsimp only
  split
  · exact within
  next h => simp only [Bool.or_eq_true, decide_eq_true_eq, not_or] at h; omega

theorem chargeAll_total (cs : Eight SlotSettings) (raws : Eight (Option Nat)) (ms : Eight SlotMeters) (k : Slot) :
    ((chargeAll cs raws ms).get k).total = (ms.get k).total + (deliveredAll raws ms).get k := by
  simp only [chargeAll, deliveredAll, Eight.get_ofFn]
  cases raws.get k with
  | none => rfl
  | some raw => exact chargeSlot_total _ raw _

theorem chargeAll_total_le (cs : Eight SlotSettings) (raws : Eight (Option Nat)) {ms : Eight SlotMeters} {k : Slot}
    (within : (ms.get k).total ≤ top32) : ((chargeAll cs raws ms).get k).total ≤ top32 := by
  rw [chargeAll_total]
  simp only [deliveredAll, Eight.get_ofFn]
  cases raws.get k with
  | none => exact within
  | some raw => exact total_add_delivered_le within raw

theorem balances_iff (slots : Eight SlotMeters) (h : Hires) :
    balances slots h.settled h.idle h.history h.current = true ↔
      ∀ k, (slots.get k).total = h.wear k ∧ (slots.get k).total ≤ top32 := by
  simp only [balances, Eight.all_toList, Eight.get_ofFn, slotBalances, id_eq, Bool.and_eq_true, beq_iff_eq,
    decide_eq_true_eq, Hires.wear]

/-- The law of R119 on the accounts, with the exclusion of R101. -/
def Balanced (a : Accounts) : Prop :=
  (a.setup = true → a.hires.current = none) ∧
    ∀ k, (a.slots.get k).total = a.hires.wear k ∧ (a.slots.get k).total ≤ top32

theorem balanced_law : AccountLaw Balanced where
  blank := ⟨fun _ => rfl, by decide⟩
  excludes _ h := h.1
  leave _ h := ⟨fun setup => Bool.noConfusion setup, h.2⟩
  enter _ h none_ := ⟨fun _ => none_, h.2⟩
  charge a h cs raws := by
    obtain ⟨excluded, sums⟩ := h
    refine ⟨fun setup => ?_, fun k => ?_⟩
    · simp only [creditTarget, excluded setup]
    · obtain ⟨sum, within⟩ := sums k
      exact ⟨by rw [chargeAll_total, creditTarget_wear, sum], chargeAll_total_le cs raws within⟩
  count a h f := by
    obtain ⟨excluded, sums⟩ := h
    refine ⟨fun setup => ?_, fun k => ?_⟩
    · simp only [Hires.onCurrent, excluded setup, Option.map_none]
    · exact (openWear_onCurrent (f := fun h => { h with counters := f h.counters }) (fun _ => rfl) a.hires k) ▸ sums k
  logged _ h _ := h
  marked a h slots same := by
    obtain ⟨excluded, sums⟩ := h
    refine ⟨excluded, fun k => ?_⟩
    obtain ⟨total, -, -⟩ := same k
    simpa only [total] using sums k
  close a h cause t := by
    obtain ⟨excluded, sums⟩ := h
    refine ⟨fun setup => ?_, fun k => ?_⟩
    · simp only [Hires.closed, excluded setup]
    · rw [closed_wear]
      exact sums k
  openHire a h r none_ armed _ _ main recovery := by
    refine ⟨fun setup => ?_, fun k => ?_⟩
    · exact absurd (armed.symm.trans setup) Bool.false_ne_true
    · rw [opened_wear none_ main recovery]
      exact h.2 k
  suspend a h b := by
    obtain ⟨excluded, sums⟩ := h
    refine ⟨fun setup => ?_, fun k => ?_⟩
    · simp only [Hires.onCurrent, excluded setup, Option.map_none]
    · rw [openWear_onCurrent fun r => by cases b <;> simp [HireRecord.wear]]
      exact sums k
  release a h n := by
    obtain ⟨excluded, sums⟩ := h
    refine ⟨fun setup => ?_, fun k => ?_⟩
    · unfold releaseThrough
      dsimp only
      split <;> exact excluded setup
    · rw [releaseThrough_wear]
      exact sums k
  pool a h := ⟨h.1, fun k => by rw [releasePool_wear]; exact h.2 k⟩
  clear a h none_ := ⟨fun _ => none_, fun k => by
    rw [clearHires_wear none_, Eight.get_all]
    exact ⟨rfl, Nat.zero_le _⟩⟩

theorem hireExcludesSetup_iff (s : State) :
    hireExcludesSetup s = true ↔ (s.accounts.setup = true → s.accounts.hires.current = none) := by
  unfold hireExcludesSetup State.accounts State.inSetup
  cases s.config.staging.isSome <;> simp

theorem imageBalances_iff (i : Image) : imageBalances i = true ↔ Balanced i.accounts := by
  have sums := balances_iff i.slots i.accounts.hires
  refine sums.trans ⟨fun h => ⟨fun setup => Bool.noConfusion setup, h⟩, fun h => h.2⟩

theorem conserves_iff (s : State) : conserves s = true ↔ Kept Balanced s := by
  have sums := balances_iff s.table.slots s.accounts.hires
  simp only [conserves, Bool.and_eq_true, List.all_eq_true, imageBalances_iff, Kept, Balanced,
    hireExcludesSetup_iff]
  exact and_congr_left fun _ => and_congr_right fun _ => sums

/-- Settles O5: R119 is a law of the accounts (`balanced_law`), and such a law is kept by every command. -/
theorem wearIsConserved : Obligations.WearIsConserved := by
  unfold Obligations.WearIsConserved
  intro s t h next
  rw [conserves_iff] at h ⊢
  exact balanced_law.step h next

/-! ## The spans of the history (R122) -/

theorem spansReach_append {n : Nat} {h g : List Summary} :
    spansReach n (h ++ g) = (spansReach n h).bind fun m => spansReach m g := by
  induction h generalizing n with
  | nil => rfl
  | cons a h ih =>
    simp only [List.cons_append, spansReach]
    split
    · exact ih
    · rfl

/-- A merge of neighbours leaves the spans without a gap, and where they end. -/
theorem mergeAt_spans {n m : Nat} {h : List Summary} {r : Summary × List Summary} (merged : mergeAt n h = some r)
    {e : Nat} (spans : spansReach m h = some e) : spansReach m r.2 = some e := by
  induction h generalizing n m r with
  | nil => cases n <;> cases merged
  | cons a rest ih =>
    simp only [spansReach] at spans
    split at spans
    next fits =>
      obtain ⟨first, up⟩ := fits
      cases n with
      | zero =>
        cases rest with
        | nil => cases merged
        | cons b rest =>
          cases merged
          simp only [spansReach] at spans
          split at spans
          next fits =>
            have run : a.first = m + 1 ∧ a.first ≤ b.last := ⟨first, by omega⟩
            exact (if_pos run).trans spans
          next => cases spans
      | succ n =>
        obtain ⟨q, found, rfl⟩ := Option.map_eq_some_iff.mp merged
        simpa only [spansReach, if_pos (And.intro first up)] using ih found spans
    next => cases spans

theorem firstPair_lt {p : Summary → Summary → Bool} {h : List Summary} {i : Nat} (found : firstPair p h = some i) :
    i + 1 < h.length := by
  induction h generalizing i with
  | nil => cases found
  | cons a rest ih =>
    cases rest with
    | nil => cases found
    | cons b rest =>
      simp only [firstPair] at found
      split at found
      · cases found
        simp
      · obtain ⟨j, there, rfl⟩ := Option.map_eq_some_iff.mp found
        have := ih there
        simp only [List.length_cons] at this ⊢
        omega

/-- The pair to merge lies within a history of two or more. -/
theorem pairToMerge_lt {h : List Summary} (two : 2 ≤ h.length) : pairToMerge h + 1 < h.length := by
  unfold pairToMerge
  split
  next found => exact firstPair_lt found
  next =>
    cases found : firstPair sameCustomer h with
    | none => exact two
    | some i => exact firstPair_lt found

theorem mergeAt_of_lt {n : Nat} {h : List Summary} (lt : n + 1 < h.length) :
    ∃ r, mergeAt n h = some r ∧ r.2.length + 1 = h.length := by
  induction h generalizing n with
  | nil => simp at lt
  | cons a rest ih =>
    cases n with
    | zero =>
      cases rest with
      | nil => simp at lt
      | cons b rest => exact ⟨_, rfl, rfl⟩
    | succ n =>
      obtain ⟨r, found, length⟩ := ih (n := n) (by simpa using lt)
      exact ⟨(r.1, a :: r.2), by simp [mergeAt, found], by simpa using length⟩

/-- A history that is not full grows by one, and a full one keeps its length (R125). -/
theorem appended_length_le {h : List Summary} (within : h.length ≤ historyMax) (m : Summary) :
    (appended h m).length ≤ historyMax := by
  unfold appended
  split
  next room => simpa using room
  next full =>
    have two : 2 ≤ h.length := by unfold historyMax at *; omega
    obtain ⟨r, merged, length⟩ := mergeAt_of_lt (pairToMerge_lt two)
    simp only [merged, List.length_append, List.length_singleton]
    omega

theorem appended_spans {n e : Nat} {h : List Summary} {m : Summary} (spans : spansReach n h = some e)
    (first : m.first = e + 1) (up : m.first ≤ m.last) : spansReach n (appended h m) = some m.last := by
  have one : spansReach e [m] = some m.last := by simp only [spansReach, if_pos (And.intro first up)]
  unfold appended
  split
  · simp only [spansReach_append, spans, Option.bind_some, one]
  · split
    next r merged => simp only [spansReach_append, mergeAt_spans merged spans, Option.bind_some, one]
    next => simp only [spansReach_append, spans, Option.bind_some, one]

/-- The last number that spans reach is that of the last summary. -/
theorem spansReach_getLast? {n : Nat} {h : List Summary} {m : Summary} (last : h.getLast? = some m) {e : Nat}
    (spans : spansReach n h = some e) : e = m.last := by
  obtain ⟨front, rfl⟩ := List.getLast?_eq_some_iff.mp last
  rw [spansReach_append] at spans
  obtain ⟨k, -, one⟩ := Option.bind_eq_some_iff.mp spans
  simp only [spansReach] at one
  split at one
  · exact (Option.some.inj one).symm
  · cases one

/-! ## The numbering of hires (R103, R122) -/

/-- The law of R122 on a Hire Unit, field by field. -/
structure Hires.Numbered (h : Hires) : Prop where
  capacity : h.history.length ≤ historyMax
  next_pos : 1 ≤ h.next
  next_le : h.next ≤ exhausted
  unopened : h.current = none → spansReach h.released h.history = some (h.next - 1)
  opened : ∀ r, h.current = some r →
    spansReach h.released h.history = some (r.number - 1) ∧ r.number + 1 = h.next ∧ 1 ≤ r.number

theorem numbered_iff (h : Hires) : numbered h.history h.released h.next h.current = true ↔ h.Numbered := by
  constructor
  · intro test
    simp only [numbered, Bool.and_eq_true, decide_eq_true_eq] at test
    obtain ⟨⟨capacity, pos, le⟩, spans⟩ := test
    refine ⟨capacity, pos, le, fun none_ => ?_, fun r open_ => ?_⟩
    · simpa [none_] using spans
    · simpa [open_, and_assoc] using spans
  · rintro ⟨capacity, pos, le, unopened, opened⟩
    simp only [numbered, Bool.and_eq_true, decide_eq_true_eq]
    refine ⟨⟨capacity, pos, le⟩, ?_⟩
    cases current : h.current with
    | none => simpa using unopened current
    | some r => simpa [and_assoc] using opened r current

theorem Hires.Numbered.of_onCurrent {h : Hires} (n : h.Numbered) {f : HireRecord → HireRecord}
    (number : ∀ r, (f r).number = r.number) : (h.onCurrent f).Numbered where
  capacity := n.capacity
  next_pos := n.next_pos
  next_le := n.next_le
  unopened none_ := n.unopened (Option.map_eq_none_iff.mp none_)
  opened r open_ := by
    obtain ⟨q, was, rfl⟩ := Option.map_eq_some_iff.mp open_
    rw [number]
    exact n.opened q was

theorem Hires.Numbered.creditTarget {h : Hires} (n : h.Numbered) (ws : Eight Nat) :
    (creditTarget ws h).Numbered := by
  obtain ⟨capacity, pos, le, unopened, opened⟩ := n
  unfold Machine.creditTarget
  split
  next none_ => exact ⟨capacity, pos, le, fun _ => unopened none_, opened⟩
  next r open_ =>
    split <;> refine ⟨capacity, pos, le, nofun, fun q now => ?_⟩ <;>
      (cases now; exact opened r open_)

theorem Hires.Numbered.closed {h : Hires} (n : h.Numbered) (cause : CloseCause) (t : MeterTime) :
    (h.closed cause t).Numbered := by
  unfold Hires.closed
  split
  · exact n
  next r open_ =>
    obtain ⟨spans, next, pos⟩ := n.opened r open_
    refine ⟨appended_length_le n.capacity _, n.next_pos, n.next_le, fun _ => ?_,
      nofun⟩
    have first : (summaryOf r cause t).first = r.number - 1 + 1 := (Nat.sub_add_cancel pos).symm
    rw [appended_spans spans first le_rfl]
    exact congrArg some (Nat.eq_sub_of_add_eq next)

theorem Hires.Numbered.openedHire {h : Hires} (n : h.Numbered) {r : HireRecord} (none_ : h.current = none)
    (number : r.number = h.next) (lt : h.next < exhausted) : (h.opened r).Numbered where
  capacity := n.capacity
  next_pos := by simp only [Hires.opened, nextNumber]; omega
  next_le := by simp only [Hires.opened, nextNumber]; omega
  unopened := nofun
  opened q now := by
    cases now
    refine ⟨number ▸ n.unopened none_, ?_, number ▸ n.next_pos⟩
    simp only [Hires.opened, nextNumber, number]
    omega

theorem Hires.Numbered.releaseThrough {h : Hires} (n : h.Numbered) (k : Nat) :
    (releaseThrough k h).Numbered := by
  unfold Machine.releaseThrough
  dsimp only
  split
  · exact n
  next m last =>
    have after : ∀ e, spansReach h.released h.history = some e →
        spansReach m.last (h.history.drop (releasable k h.history).length) = some e := by
      intro e spans
      rw [← releasable_append_drop k h.history, spansReach_append] at spans
      obtain ⟨j, front, back⟩ := Option.bind_eq_some_iff.mp spans
      rwa [spansReach_getLast? last front] at back
    refine ⟨?_, n.next_pos, n.next_le, fun none_ => after _ (n.unopened none_), fun r open_ => ?_⟩
    · rw [List.length_drop]
      exact (Nat.sub_le _ _).trans n.capacity
    · obtain ⟨spans, rest⟩ := n.opened r open_
      exact ⟨after _ spans, rest⟩

theorem Hires.Numbered.cleared {h : Hires} (n : h.Numbered) (none_ : h.current = none) : (clearHires h).Numbered where
  capacity := Nat.zero_le _
  next_pos := n.next_pos
  next_le := n.next_le
  unopened _ := rfl
  opened _ open_ := nomatch none_.symm.trans open_

/-- The law of R122 on the accounts, with the exclusion of R101. -/
def RunsOn (a : Accounts) : Prop := (a.setup = true → a.hires.current = none) ∧ a.hires.Numbered

theorem runsOn_law : AccountLaw RunsOn where
  blank := ⟨fun _ => rfl, (numbered_iff _).mp (by decide)⟩
  excludes _ h := h.1
  leave _ h := ⟨fun setup => Bool.noConfusion setup, h.2⟩
  enter _ h none_ := ⟨fun _ => none_, h.2⟩
  charge _ h _ raws := ⟨fun setup => by simp only [creditTarget, h.1 setup], h.2.creditTarget _⟩
  count _ h _ := ⟨fun setup => by simp only [Hires.onCurrent, h.1 setup, Option.map_none], h.2.of_onCurrent fun _ => rfl⟩
  logged _ h _ := h
  marked _ h _ _ := h
  close _ h cause t := ⟨fun setup => by simp only [Hires.closed, h.1 setup], h.2.closed cause t⟩
  openHire _ h _ none_ armed lt number _ _ :=
    ⟨fun setup => absurd (armed.symm.trans setup) Bool.false_ne_true, h.2.openedHire none_ number lt⟩
  suspend _ h _ :=
    ⟨fun setup => by simp only [Hires.onCurrent, h.1 setup, Option.map_none], h.2.of_onCurrent fun _ => rfl⟩
  release _ h n := ⟨fun setup => by unfold releaseThrough; dsimp only; split <;> exact h.1 setup, h.2.releaseThrough n⟩
  pool _ h := ⟨h.1, ⟨h.2.capacity, h.2.next_pos, h.2.next_le, h.2.unopened, h.2.opened⟩⟩
  clear _ h none_ := ⟨fun _ => none_, h.2.cleared none_⟩

theorem imageNumbered_iff (i : Image) : imageNumbered i = true ↔ RunsOn i.accounts :=
  (numbered_iff i.accounts.hires).trans ⟨fun h => ⟨fun setup => Bool.noConfusion setup, h⟩, fun h => h.2⟩

theorem numbersHires_iff (s : State) : numbersHires s = true ↔ Kept RunsOn s := by
  have law := numbered_iff s.accounts.hires
  simp only [numbersHires, Bool.and_eq_true, List.all_eq_true, imageNumbered_iff, Kept, RunsOn, hireExcludesSetup_iff]
  exact and_congr_left fun _ => and_congr_right fun _ => law

/-- Settles O6: the numbering is a law of the accounts (`runsOn_law`), and such a law is kept by every command. -/
theorem hireNumbersRunOn : Obligations.HireNumbersRunOn := by
  unfold Obligations.HireNumbersRunOn
  intro s t h next
  rw [numbersHires_iff] at h ⊢
  exact runsOn_law.step h next

end Sys2Proof.Machine

namespace Sys2Proof.Machine

set_option Elab.async false

open Sys2Proof Sys2Proof.Safety

/-! ## Bytes and values (section 11.7.1) -/

@[simp] theorem length_bytesOf (w n : Nat) : (bytesOf w n).length = w := by
  induction w with
  | zero => rfl
  | succ w ih => simp only [bytesOf, List.length_cons, ih]

theorem bytesOf_zero (w : Nat) : bytesOf w 0 = List.replicate w 0x00 := by
  induction w with
  | zero => rfl
  | succ w ih => simp [bytesOf, List.replicate_succ, ih]

theorem foldl_bytesOf (w n a : Nat) :
    (bytesOf w n).foldl (fun v b => v * 256 + b.toNat) a = a * 256 ^ w + n % 256 ^ w := by
  induction w generalizing a with
  | zero => simp [bytesOf, Nat.mod_one]
  | succ w ih =>
    have digits : n % 256 ^ (w + 1) = n % 256 ^ w + 256 ^ w * (n / 256 ^ w % 256) := by
      rw [Nat.pow_succ, Nat.mod_mul]
    simp only [bytesOf, List.foldl_cons, ih, BitVec.toNat_ofNat, digits, Nat.reducePow]
    ring

theorem valueOf_bytesOf {w n : Nat} (small : n < 256 ^ w) : valueOf (bytesOf w n) = n := by
  unfold valueOf
  rw [foldl_bytesOf, Nat.zero_mul, Nat.zero_add, Nat.mod_eq_of_lt small]

@[simp] theorem valueOf_singleton (b : Byte) : valueOf [b] = b.toNat := by simp [valueOf]

@[simp] theorem valueOf_pair (b c : Byte) : valueOf [b, c] = b.toNat * 256 + c.toNat := by simp [valueOf]

/-! ## The fields of a payload -/

/-- A payload splits into fields of given widths exactly when it is as long as they are together. -/
theorem splitFields_eq_none_iff (ws : List Nat) (bs : List Byte) : splitFields ws bs = none ↔ bs.length ≠ ws.sum := by
  induction ws generalizing bs with
  | nil => cases bs <;> simp [splitFields]
  | cons w ws ih =>
    simp only [splitFields, List.sum_cons]
    split
    next short => simp only [true_iff]; omega
    next => simp only [Option.map_eq_none_iff, ih, List.length_drop]; omega

theorem splitFields_eq_some_length {ws vs : List Nat} {bs : List Byte} (h : splitFields ws bs = some vs) :
    bs.length = ws.sum := by
  by_contra ne
  rw [(splitFields_eq_none_iff ws bs).mpr ne] at h
  cases h

theorem splitFields_cons_append {w : Nat} {ws : List Nat} {front back : List Byte} (length : front.length = w) :
    splitFields (w :: ws) (front ++ back) = (splitFields ws back).map fun vs => valueOf front :: vs := by
  subst length
  simp only [splitFields, List.length_append, List.take_left, List.drop_left]
  rw [if_neg (by omega)]

theorem splitFields_bytesOf {w n : Nat} {ws : List Nat} {back : List Byte} (small : n < 256 ^ w) :
    splitFields (w :: ws) (bytesOf w n ++ back) = (splitFields ws back).map fun vs => n :: vs := by
  rw [splitFields_cons_append (length_bytesOf w n), valueOf_bytesOf small]

theorem splitFields_one {w n : Nat} (small : n < 256 ^ w) : splitFields [w] (bytesOf w n) = some [n] := by
  simpa [splitFields] using splitFields_bytesOf (ws := []) (back := []) small

theorem splitFields_byte (ws : List Nat) (b : Byte) (bs : List Byte) :
    splitFields (1 :: ws) (b :: bs) = (splitFields ws bs).map fun vs => b.toNat :: vs := by
  rw [← valueOf_singleton b]
  exact splitFields_cons_append (front := [b]) rfl

/-! ## The taking of a request (R178) -/

section
variable {kind : Byte} {f : Frame} {rest : List Frame} {s : State} {work : Frame → State → State}

theorem canTake_of_atHead (h : atHead kind f rest s) : s.canTake = true := by
  obtain ⟨-, -, awake, restart, entries⟩ := h
  simp [State.canTake, awake, restart, entries]

theorem takeHead_of_atHead {mine : Byte → Bool} (h : atHead kind f rest s) (is : mine kind = true) :
    takeHead mine work s = .next (arbitrate (work f { s with link.queue := rest })) := by
  have take := canTake_of_atHead h
  obtain ⟨queue, rfl, -⟩ := h
  simp only [takeHead, queue, is, take, Bool.and_self, if_true]
  rfl

/-- A frame at the head of the queue is taken by the command of its KIND. -/
theorem takeKind_of_atHead (h : atHead kind f rest s) :
    takeKind kind work s = .next (arbitrate (work f { s with link.queue := rest })) :=
  takeHead_of_atHead h (beq_self_eq_true kind)

/-- A frame that cannot be taken, or that is another command's, waits. -/
theorem takeHead_waits {mine : Byte → Bool}
    (wait : s.link.queue = [] ∨ s.awake = false ∨ s.link.restartTaken = true ∨ 4 ≤ s.link.entries ∨
      ∃ f rest, s.link.queue = f :: rest ∧ mine f.kind = false) :
    takeHead mine work s = .next s := by
  unfold takeHead
  split
  · rfl
  next f rest queue =>
    have stays : (mine f.kind && s.canTake) = false := by
      unfold State.canTake
      rcases wait with empty | asleep | restart | full | ⟨g, after, now, not⟩
      · cases queue.symm.trans empty
      · simp [asleep]
      · simp [restart]
      · simp [Nat.not_lt.mpr full]
      · cases queue.symm.trans now
        simp [not]
    rw [stays]
    rfl

@[simp] theorem noPayload_of_nil (h : f.payload = []) : noPayload work f s = work f s := by
  simp [noPayload, h]

theorem noPayload_of_ne_nil (h : f.payload ≠ []) : noPayload work f s = refuse f .refusedLength s := by
  simp [noPayload, h]

theorem withFields_of_split {ws vs : List Nat} {work : Frame → List Nat → State → State}
    (h : splitFields ws f.payload = some vs) : withFields ws work f s = work f vs s := by
  simp only [withFields, h]

theorem withFields_of_length_ne {ws : List Nat} {work : Frame → List Nat → State → State}
    (h : f.payload.length ≠ ws.sum) : withFields ws work f s = refuse f .refusedLength s := by
  simp only [withFields, (splitFields_eq_none_iff ws f.payload).mpr h]

theorem oneField_of_value {w n : Nat} {work : Frame → Nat → State → State} (small : n < 256 ^ w)
    (h : f.payload = bytesOf w n) : oneField w work f s = work f n s := by
  unfold oneField
  rw [withFields_of_split (h ▸ splitFields_one small)]
  rfl

theorem oneField_of_byte {b : Byte} {work : Frame → Nat → State → State} (h : f.payload = [b]) :
    oneField 1 work f s = work f b.toNat s := by
  have split : splitFields [1] f.payload = some [b.toNat] := by rw [h, splitFields_byte]; rfl
  unfold oneField
  rw [withFields_of_split split]
  rfl

theorem eightIndex_of_gt {n : Nat} (h : 7 < n) : eightIndex n = none := dif_neg (by omega)

theorem eightIndex_of_eq {n : Nat} {k : Fin 8} (h : k.val = n) : eightIndex n = some k := by
  subst h
  exact dif_pos k.isLt

theorem onSlot_of_gt {n : Nat} {work : Frame → Slot → State → State} (h : 7 < n) :
    onSlot n work f s = refuse f .refusedRange s := by
  simp only [onSlot, eightIndex_of_gt h]

theorem onSlot_of_eq {n : Nat} {k : Slot} {work : Frame → Slot → State → State} (h : k.val = n) :
    onSlot n work f s = work f k s := by
  simp only [onSlot, eightIndex_of_eq h]

/-- A reply at once, of a request that has left the queue. -/
theorem answer_taken (f : Frame) (rest : List Frame) (code : ReplyCode) (fields : List Field) (s : State) :
    answer f code fields { s with link.queue := rest } = replied f rest code fields s := rfl

theorem answerDone_taken (f : Frame) (rest : List Frame) (fields : List Field) (s : State) :
    answerDone f fields { s with link.queue := rest } = replied f rest .done fields s := rfl

theorem refuse_taken (f : Frame) (rest : List Frame) (code : ReplyCode) (s : State) :
    refuse f code { s with link.queue := rest } = replied f rest code [] s := rfl

theorem State.boundNow_eq (s : State) : s.boundNow = if s.store.commit = .idle then .current else .next := by
  unfold State.boundNow
  cases s.store.commit <;> rfl

/-- A deferred reply, of a request that has left the queue (R169). -/
theorem deferReply_taken (f : Frame) (rest : List Frame) (form : DeferredForm) (after : AfterReply) (s : State) :
    deferReply f form after { s with link.queue := rest } = askCommit (replyWaits f rest form after s) := by
  unfold deferReply replyWaits
  rw [State.boundNow_eq]

end

/-! ## The queue stands apart from what a request's work reads -/

theorem formLamps_queue (s : State) (q : List Frame) :
    formLamps { s with link.queue := q } = { formLamps s with link.queue := q } := by
  unfold formLamps
  by_cases awake : s.awake = true
  · rw [if_pos awake, if_pos (show State.awake { s with link.queue := q } = true from awake)]
  · rw [if_neg awake, if_neg (show ¬ State.awake { s with link.queue := q } = true from awake)]

theorem appendSummary_queue (m : Summary) (s : State) (q : List Frame) :
    appendSummary m { s with link.queue := q } = { appendSummary m s with link.queue := q } := by
  unfold appendSummary
  dsimp only
  split
  · split <;> rfl
  · split <;> rfl

theorem closeOpenHire_queue (cause : CloseCause) (s : State) (q : List Frame) :
    closeOpenHire cause { s with link.queue := q } = { closeOpenHire cause s with link.queue := q } := by
  unfold closeOpenHire
  dsimp only
  split
  · rfl
  · rw [appendSummary_queue]

/-! ## Frames that wait, frames of no request, wrong lengths -/

theorem noPayload_eq_withFields (work : Frame → State → State) (f : Frame) (s : State) :
    noPayload work f s = withFields [] (fun g _ => work g) f s := by
  cases empty : f.payload <;> simp [noPayload, withFields, splitFields, empty]

/-- The requests of section 11.7.2 but SET_ITEM, with their KINDs and the widths of their fields. -/
def layouts : List (Instr × Byte × List Nat) :=
  [(.identify, 0x01, []), (.readStatus, 0x02, []), (.readSlot, 0x03, [1]), (.readMeters, 0x04, []),
    (.readHire, 0x05, []), (.readHistory, 0x06, [1]), (.readStartLog, 0x07, [1]), (.readIdle, 0x08, []),
    (.openHire, 0x10, [4]), (.closeHire, 0x11, []), (.suspendHire, 0x12, []), (.resumeHire, 0x13, []),
    (.releaseHistory, 0x14, [4]), (.releaseIdle, 0x15, []), (.declareCondition, 0x18, [1, 1, 2]),
    (.recordService, 0x20, [1]), (.installUnit, 0x21, [1, 4]), (.enterSetup, 0x30, []), (.readItem, 0x32, [1]),
    (.arm, 0x33, []), (.abandon, 0x34, []), (.loadDefaults, 0x35, []), (.clearAccounting, 0x36, []),
    (.checkpoint, 0x40, []), (.sleep, 0x41, []), (.restart, 0x42, []), (.noticeMask, 0x48, [2]),
    (.clearFlags, 0x49, [2]), (.stream, 0x4A, [2, 2])]

/-- Each of these requests is the taking of its KIND, with a test of its payload's length before its work. -/
theorem exec_of_layout {i : Instr} {kind : Byte} {ws : List Nat} (row : (i, kind, ws) ∈ layouts) :
    ∃ work : Frame → List Nat → State → State, ∀ s, exec i s = takeKind kind (withFields ws work) s := by
  have bare : ∀ {i kind work}, (∀ s, exec i s = takeKind kind (noPayload work) s) →
      ∃ work : Frame → List Nat → State → State, ∀ s, exec i s = takeKind kind (withFields [] work) s := by
    intro i kind work is
    refine ⟨fun g _ => work g, fun s => ?_⟩
    rw [is, funext fun f => funext fun s => noPayload_eq_withFields work f s]
  simp only [layouts, List.mem_cons, Prod.mk.injEq, List.not_mem_nil, or_false] at row
  rcases row with row | row | row | row | row | row | row | row | row | row | row | row | row | row | row | row | row |
    row | row | row | row | row | row | row | row | row | row | row | row <;>
  obtain ⟨rfl, rfl, rfl⟩ := row <;>
  first
  | exact bare fun _ => rfl
  | exact ⟨_, fun _ => rfl⟩

/-- Settles O46: each of these requests tests its payload's length before anything else (`exec_of_layout`). -/
theorem wrongLengthIsRefused : Obligations.WrongLengthIsRefused := by
  unfold Obligations.WrongLengthIsRefused
  intro s f rest i kind n row head ne
  replace row : (i, kind, n) ∈ layouts.map fun r => (r.1, r.2.1, r.2.2.sum) := row
  obtain ⟨⟨j, k, ws⟩, mem, eq⟩ := List.mem_map.mp row
  cases eq
  obtain ⟨work, taking⟩ := exec_of_layout mem
  rw [taking, takeKind_of_atHead head, withFields_of_length_ne ne, refuse_taken]

/-- A command that has a KIND byte is the taking of frames of that KIND. -/
theorem exec_of_kind {i : Instr} {kind : Byte} (h : kindOfRequest i = some kind) :
    ∃ work : Frame → State → State, ∀ s, exec i s = takeKind kind work s := by
  cases i <;> cases h <;> exact ⟨_, fun _ => rfl⟩

theorem exec_unknownRequest (s : State) :
    exec .unknownRequest s = takeHead isUnknownKind (fun f t => refuse f .refusedUnknown t) s := rfl

theorem exec_replyKindFrameDrop (s : State) : exec .replyKindFrameDrop s = takeHead isReplyKind (fun _ t => t) s := rfl

/-- Settles O45: a request command, and each of the two commands for frames of no request, is the taking of a frame,
which waits or is taken by its KIND. -/
theorem framesWaitOrAreUnknown : Obligations.FramesWaitOrAreUnknown := by
  unfold Obligations.FramesWaitOrAreUnknown
  simp only [exec_unknownRequest, exec_replyKindFrameDrop]
  refine ⟨⟨fun s i kind is wait => ?request, fun s => ⟨fun wait => ?cannot, fun f rest queue known => ?known,
    fun f rest queue low => ?low⟩⟩, fun s f rest kind head => ⟨fun low unknown => ?refused, fun high => ?dropped⟩⟩
  case request =>
    obtain ⟨work, taking⟩ := exec_of_kind is
    rw [taking]
    refine takeHead_waits ?_
    simpa only [beq_eq_false_iff_ne] using wait
  case cannot =>
    have wait' : ∀ mine : Byte → Bool, s.link.queue = [] ∨ s.awake = false ∨ s.link.restartTaken = true ∨
        4 ≤ s.link.entries ∨ ∃ f rest, s.link.queue = f :: rest ∧ mine f.kind = false := by
      intro mine
      rcases wait with h | h | h | h <;> simp only [h, true_or, or_true]
    exact ⟨takeHead_waits (wait' _), takeHead_waits (wait' _)⟩
  case known =>
    refine takeHead_waits (.inr (.inr (.inr (.inr ⟨f, rest, queue, ?_⟩))))
    rcases known with high | request
    · simp [isUnknownKind, isReplyKind, high]
    · simp only [isUnknownKind, Option.isNone_eq_false_iff.mpr request, Bool.and_false]
  case low =>
    exact takeHead_waits
      (.inr (.inr (.inr (.inr ⟨f, rest, queue, decide_eq_false (Nat.not_le.mpr low)⟩))))
  case refused =>
    exact takeHead_of_atHead head (by simp [isUnknownKind, isReplyKind, low, unknown])
  case dropped =>
    exact takeHead_of_atHead head (decide_eq_true high)

end Sys2Proof.Machine

namespace Sys2Proof.Machine

set_option Elab.async false

open Sys2Proof Sys2Proof.Safety

/-! ## One request at the head of the queue -/

section
variable {i : Instr} {kind : Byte} {f : Frame} {rest : List Frame} {s : State}

/-- A request without payload does its work. -/
theorem exec_bare {work : Frame → State → State} (is : ∀ s, exec i s = takeKind kind (noPayload work) s)
    (head : atHead kind f rest s) (empty : f.payload = []) :
    exec i s = .next (arbitrate (work f { s with link.queue := rest })) := by
  rw [is, takeKind_of_atHead head, noPayload_of_nil empty]

/-- A request without payload, that carries one, is refused. -/
theorem exec_bare_refused {work : Frame → State → State} (is : ∀ s, exec i s = takeKind kind (noPayload work) s)
    (head : atHead kind f rest s) (carries : f.payload ≠ []) :
    exec i s = .next (arbitrate (replied f rest .refusedLength [] s)) := by
  rw [is, takeKind_of_atHead head, noPayload_of_ne_nil carries, refuse_taken]

/-- A request of one value does its work on it. -/
theorem exec_value {w n : Nat} {work : Frame → Nat → State → State}
    (is : ∀ s, exec i s = takeKind kind (oneField w work) s) (head : atHead kind f rest s) (small : n < 256 ^ w)
    (payload : f.payload = bytesOf w n) :
    exec i s = .next (arbitrate (work f n { s with link.queue := rest })) := by
  rw [is, takeKind_of_atHead head, oneField_of_value small payload]

/-- A request of one byte does its work on it. -/
theorem exec_byte {b : Byte} {work : Frame → Nat → State → State}
    (is : ∀ s, exec i s = takeKind kind (oneField 1 work) s) (head : atHead kind f rest s) (payload : f.payload = [b]) :
    exec i s = .next (arbitrate (work f b.toNat { s with link.queue := rest })) := by
  rw [is, takeKind_of_atHead head, oneField_of_byte payload]

/-- A request of several fields does its work on them. -/
theorem exec_fields {ws vs : List Nat} {work : Frame → List Nat → State → State}
    (is : ∀ s, exec i s = takeKind kind (withFields ws work) s) (head : atHead kind f rest s)
    (payload : splitFields ws f.payload = some vs) :
    exec i s = .next (arbitrate (work f vs { s with link.queue := rest })) := by
  rw [is, takeKind_of_atHead head, withFields_of_split payload]

end

/-! ## The reading requests -/

theorem nums8_eq (w : Nat) (e : Eight Nat) :
    nums8 w e = [(0 : Slot), 1, 2, 3, 4, 5, 6, 7].map fun k => Field.num w (e.get k) := rfl

theorem Power.code_eq (p : Power) : p.code = if p = .run then 0 else 1 := by cases p <;> rfl

theorem boolCode_decide (p : Prop) [Decidable p] : boolCode (decide p) = if p then 1 else 0 := by
  by_cases h : p <;> simp [boolCode, h]

theorem boolCode_not (b : Bool) : boolCode (!b) = if b then 0 else 1 := by cases b <;> rfl

/-- Settles O48: the three requests without operands answer with the values as they stand, and refuse a payload. -/
theorem identityStatusAndIdlePoolAreRead : Obligations.IdentityStatusAndIdlePoolAreRead := by
  unfold Obligations.IdentityStatusAndIdlePoolAreRead
  refine ⟨fun s f rest => ⟨fun head => ?identify, fun head => ?status⟩, fun s f rest head => ?idle⟩
  case identify =>
    split
    next empty => rw [exec_bare (i := .identify) (fun _ => rfl) head empty]; rfl
    next carries => exact exec_bare_refused (i := .identify) (fun _ => rfl) head carries
  case status =>
    split
    next empty =>
      rw [exec_bare (i := .readStatus) (fun _ => rfl) head empty, answerDone_taken]
      simp only [statusFields, Power.code_eq, boolCode_not]
      rfl
    next carries => exact exec_bare_refused (i := .readStatus) (fun _ => rfl) head carries
  case idle =>
    split
    next empty => rw [exec_bare (i := .readIdle) (fun _ => rfl) head empty]; rfl
    next carries => exact exec_bare_refused (i := .readIdle) (fun _ => rfl) head carries

theorem nextAttemptField_eq (s : State) :
    nextAttemptField s = .opt 4 (if s.starts.next < 4294967296 then some s.starts.next else none) := by
  unfold nextAttemptField exhausted
  by_cases left : s.starts.next < 4294967296
  · rw [if_pos left, if_neg (Nat.not_le.mpr left)]
  · rw [if_neg left, if_pos (Nat.not_lt.mp left)]

/-- Settles O49: each request answers with the record it names, or with the refusal of an index or of an absent hire. -/
theorem recordsAreRead : Obligations.RecordsAreRead := by
  unfold Obligations.RecordsAreRead
  refine ⟨fun s f rest => ⟨fun head empty => ?meters, fun head empty => ?hire, fun b head payload => ?slot⟩,
    fun s f rest b payload => ⟨fun head => ?history, fun head => ?log, fun head => ?item⟩⟩
  case meters =>
    rw [exec_bare (i := .readMeters) (fun _ => rfl) head empty]
    rfl
  case hire =>
    rw [exec_bare (i := .readHire) (fun _ => rfl) head empty]
    refine ⟨fun none_ => ?_, fun h open_ => ?_⟩
    · simp only [readHireWork, none_, refuse_taken]
    · simp only [readHireWork, open_, answerDone_taken]
  case slot =>
    rw [exec_byte (i := .readSlot) (fun _ => rfl) head payload]
    refine ⟨fun above => ?_, fun k is => ?_⟩
    · rw [onSlot_of_gt above, refuse_taken]
    · rw [onSlot_of_eq is]
      rfl
  case history =>
    rw [exec_byte (i := .readHistory) (fun _ => rfl) head payload]
    unfold readHistoryWork
    cases s.hires.history[b.toNat]? <;> rfl
  case log =>
    rw [exec_byte (i := .readStartLog) (fun _ => rfl) head payload, ← nextAttemptField_eq]
    unfold readStartLogWork
    cases s.starts.log[b.toNat]? <;> rfl
  case item =>
    rw [exec_byte (i := .readItem) (fun _ => rfl) head payload]
    unfold readItemWork
    cases itemOfId b.toNat <;> rfl

/-! ## The hire requests -/

@[simp] theorem closeOpenHire_of_none {cause : CloseCause} {s : State} (none_ : s.hires.current = none) :
    closeOpenHire cause s = s := by
  simp only [closeOpenHire, none_]

theorem nextNumber_of_lt {n : Nat} (left : n < 4294967296) : nextNumber n = n + 1 := by
  unfold nextNumber exhausted
  omega

/-- The opening of a hire, the frame of its request having left the queue (R106). -/
theorem openNewHire_queue (key : Nat) (s : State) (q : List Frame) :
    openNewHire key { s with link.queue := q } = { openNewHire key s with link.queue := q } := by
  unfold openNewHire
  rw [closeOpenHire_queue]
  rfl

theorem openNewHire_eq (key : Nat) (s : State) :
    openNewHire key s =
      { closeOpenHire .superseded s with
        hires.current := some (newHire key s), hires.next := nextNumber s.hires.next } := by
  unfold openNewHire newHire
  simp only [closeOpenHire_frame]

/-- Settles O50: the two refusals, and the opening with its deferred reply. -/
theorem hiresAreOpened : Obligations.HiresAreOpened := by
  unfold Obligations.HiresAreOpened
  intro s f rest key head payload small
  rw [exec_value (i := .openHire) (fun _ => rfl) head small payload]
  refine ⟨fun setup => ?_, fun armed full => ?_, fun armed left => ?_⟩
  · simp only [openHireWork, State.inSetup, setup, if_true, refuse_taken]
  · simp only [openHireWork, State.inSetup, armed, Option.isSome_none, Bool.false_eq_true, if_false, exhausted,
      ge_iff_le, full, if_true, refuse_taken]
  · have numbers : ¬ s.hires.next ≥ exhausted := Nat.not_le.mpr left
    simp only [openHireWork, State.inSetup, armed, Option.isSome_none, Bool.false_eq_true, if_false, numbers,
      openNewHire_queue, deferReply_taken]
    rw [openNewHire_eq, nextNumber_of_lt left]
    rfl

/-- Settles O54: the refusals, the answers at once, and the changes with their deferred replies. -/
theorem hiresAreClosedSuspendedAndResumed : Obligations.HiresAreClosedSuspendedAndResumed := by
  unfold Obligations.HiresAreClosedSuspendedAndResumed
  refine ⟨fun s f rest head empty => ?close, ?suspend⟩
  case close =>
    rw [exec_bare (i := .closeHire) (fun _ => rfl) head empty]
    refine ⟨fun none_ => ?_, fun h open_ => ?_⟩
    · simp only [closeHireWork, none_, refuse_taken]
    · simp only [closeHireWork, open_, closeOpenHire_queue, deferReply_taken, boolCode_decide]
      rfl
  case suspend =>
    intro s f rest suspend c head empty
    have taken : exec c s = .next (arbitrate (suspendWork suspend f { s with link.queue := rest })) := by
      cases suspend
      · exact exec_bare (i := .resumeHire) (fun _ => rfl) head empty
      · exact exec_bare (i := .suspendHire) (fun _ => rfl) head empty
    rw [taken]
    refine ⟨fun none_ => ?_, fun h open_ same => ?_, fun h open_ other => ?_⟩
    · simp only [suspendWork, none_, refuse_taken]
    · simp only [suspendWork, open_, same, if_true, answerDone_taken, hireStateFields, State.hireNumber,
        Option.map_some, hireStateCode]
    · simp only [suspendWork, open_, other, if_false, setSuspended, hireStateFields, State.hireNumber,
        Option.map_some, hireStateCode]
      rw [← deferReply_taken]
      rfl

/-! ## The releases -/

theorem releasable_of_split {n : Nat} {out kept : List Summary} (through : ∀ m ∈ out, m.last ≤ n)
    (beyond : ∀ m, kept.head? = some m → n < m.last) : releasable n (out ++ kept) = out := by
  have none_ : kept.takeWhile (fun m => decide (m.last ≤ n)) = [] := by
    cases kept with
    | nil => rfl
    | cons m rest => exact List.takeWhile_cons_of_neg (by simpa using beyond m rfl)
  unfold releasable
  rw [List.takeWhile_append_of_pos fun m mem => decide_eq_true (through m mem), none_, List.append_nil]

/-- The wear that summaries hold together, slot by slot. -/
theorem wearOf_eq_ofFn (ms : List Summary) :
    wearOf ms = Eight.ofFn fun k => (ms.map fun m => m.main.get k + (m.recovery.getD (Eight.all 0)).get k).sum :=
  Eight.ext_get fun k => by
    rw [wearOf_get, Eight.get_ofFn]
    simp only [Summary.wear, Eight.get_zip, zeroAccounts]

/-- Settles O55: the release of the front of the history, and of the idle pool. -/
theorem accountsAreReleased : Obligations.AccountsAreReleased := by
  unfold Obligations.AccountsAreReleased
  refine ⟨fun s f waiting out kept n head payload small history through beyond => ?_, fun s f rest head empty => ?_⟩
  · have released : releasable n s.hires.history = out := history ▸ releasable_of_split through beyond
    rw [exec_value (i := .releaseHistory) (fun _ => rfl) head small payload]
    refine ⟨fun none_ => ?_, fun newest last => ?_⟩
    · simp only [releaseHistoryWork, released, none_, List.isEmpty_nil, if_true, answerDone_taken]
      rfl
    · have some_ : out.isEmpty = false := by cases out <;> [cases last; rfl]
      have rest : s.hires.history.drop out.length = kept := by rw [history, List.drop_left]
      simp only [releaseHistoryWork, released, some_, Bool.false_eq_true, if_false, releaseThrough, last, rest,
        releaseFields, nums8_eq, wearOf_eq_ofFn]
      rw [← deferReply_taken]
      rfl
  · rw [exec_bare (i := .releaseIdle) (fun _ => rfl) head empty]
    simp only [releaseIdleWork, nums8_eq]
    rw [← deferReply_taken]
    rfl

/-! ## CLEAR_ACCOUNTING, CHECKPOINT, SLEEP and RESTART -/

/-- Settles O59: the two refusals in the order of R147, and the clearing with its deferred reply. -/
theorem accountsAreCleared : Obligations.AccountsAreCleared := by
  unfold Obligations.AccountsAreCleared
  intro s f rest head empty
  rw [exec_bare (i := .clearAccounting) (fun _ => rfl) head empty]
  refine ⟨fun armed => ?_, fun setup active => ?_, fun setup inactive => ?_⟩
  · simp only [clearAccountingWork, State.inSetup, armed, Option.isSome_none, Bool.not_false, if_true, refuse_taken]
  · simp only [clearAccountingWork, State.inSetup, setup, active, Bool.not_true, Bool.false_eq_true, if_false, if_true,
      refuse_taken]
  · simp only [clearAccountingWork, State.inSetup, setup, inactive, Bool.not_true, Bool.false_eq_true, if_false,
      clearAccounts, clearHires]
    rw [← deferReply_taken, ← formLamps_queue]
    rfl

theorem sleepConditions_iff (s : State) :
    s.sleepConditions = true ↔
      s.inputs.ign.level = false ∧ s.duty.engine = .off ∧ s.inputs.crk.level = false ∧ s.inputs.out.st = .stalled := by
  simp only [State.sleepConditions, Bool.and_eq_true, Bool.not_eq_true', beq_iff_eq, and_assoc]

theorem AfterReply.replaced_eq (a : AfterReply) : a.replaced = if a = .sleepLive then .sleepReplaced else a := by
  cases a <;> rfl

theorem AfterReply.cancelled_eq (a : AfterReply) :
    a.cancelled = if a = .sleepLive ∨ a = .sleepReplaced then .sleepCancelled else a := by
  cases a <;> simp [AfterReply.cancelled]

/-- Settles O60: the three requests whose replies wait for a commit, and the refusals of SLEEP. -/
theorem checkpointSleepAndRestart : Obligations.CheckpointSleepAndRestart := by
  unfold Obligations.CheckpointSleepAndRestart
  intro s f rest empty
  refine ⟨fun head => ?_, fun head => ?_, fun head => ?_⟩
  · rw [exec_bare (i := .checkpoint) (fun _ => rfl) head empty, deferReply_taken]
  · rw [exec_bare (i := .restart) (fun _ => rfl) head empty, ← deferReply_taken]
  · rw [exec_bare (i := .sleep) (fun _ => rfl) head empty]
    refine ⟨fun active => ?_, fun inactive busy => ?_, fun inactive off crk still => ?_⟩
    · simp only [sleepWork, active, if_true, refuse_taken]
    · have not : State.sleepConditions { s with link.queue := rest } = false := by
        rw [Bool.eq_false_iff, ne_eq, sleepConditions_iff]
        rintro ⟨-, off, crk, still⟩
        rcases busy with engine | pressed | turns
        · exact engine off
        · exact Bool.false_ne_true (crk.symm.trans pressed)
        · exact turns still
      simp only [sleepWork, inactive, not, Bool.false_eq_true, if_false, Bool.not_false, if_true, refuse_taken]
    · have rests : State.sleepConditions { s with link.queue := rest } = true :=
        (sleepConditions_iff _).mpr ⟨inactive, off, crk, still⟩
      simp only [sleepWork, inactive, rests, Bool.false_eq_true, if_false, Bool.not_true, ← AfterReply.replaced_eq]
      rw [← deferReply_taken, pendSleep, State.boundNow_eq]
      rfl

end Sys2Proof.Machine

namespace Sys2Proof.Machine

set_option Elab.async false

open Sys2Proof Sys2Proof.Safety

/-! ## Raises (R180) -/

theorem FlagState.raised_of_clear {st : FlagState} (clear : st.set = none) (d : Detail) (t : MeterTime) :
    st.raised d t = ⟨some ⟨d, t⟩, st.enabled, st.enabled⟩ := by
  simp only [FlagState.raised, clear]

theorem FlagState.raised_of_set {st : FlagState} (set : st.set.isSome = true) (d : Detail) (t : MeterTime) :
    st.raised d t = st := by
  obtain ⟨r, is⟩ := Option.isSome_iff_exists.mp set
  simp only [FlagState.raised, is]

theorem FlagState.raised_eq (st : FlagState) (d : Detail) (t : MeterTime) :
    st.raised d t = if st.set.isSome then st else ⟨some ⟨d, t⟩, st.enabled, st.enabled⟩ := by
  split
  next set => exact raised_of_set set d t
  next clear => exact raised_of_clear (Option.not_isSome_iff_eq_none.mp clear) d t

@[simp] theorem FlagState.raised_enabled (st : FlagState) (d : Detail) (t : MeterTime) :
    (st.raised d t).enabled = st.enabled := by
  rw [raised_eq]
  split <;> rfl

@[simp] theorem FlagState.raised_isSome (st : FlagState) (d : Detail) (t : MeterTime) :
    (st.raised d t).set.isSome = true := by
  rw [raised_eq]
  split
  · assumption
  · rfl

theorem raise_get (f g : Flag) (d : Detail) (s : State) :
    (raise f d s).link.flags.get g =
      if g = f then (s.link.flags.get f).raised d s.clock.time else s.link.flags.get g :=
  FlagTable.get_set ..

/-! ## NOTICE_MASK and CLEAR_FLAGS (R180, R181) -/

theorem remask_get (t : FlagTable) (mask : Nat) (g : Flag) :
    (t.remask mask).get g =
      { set := (t.get g).set, enabled := maskBit mask g,
        notice := maskBit mask g && ((t.get g).notice || (!(t.get g).enabled && (t.get g).set.isSome)) } :=
  FlagTable.get_ofFn ..

theorem clear_get (t : FlagTable) (mask : Nat) (g : Flag) :
    (t.clear mask).get g = if maskBit mask g then ⟨none, (t.get g).enabled, false⟩ else t.get g :=
  FlagTable.get_ofFn ..

theorem clear_enabled (t : FlagTable) (mask : Nat) (g : Flag) : ((t.clear mask).get g).enabled = (t.get g).enabled := by
  rw [clear_get]
  split <;> rfl

theorem clearFlagsIn_get (mask : Nat) (s : State) (g : Flag) :
    (clearFlagsIn mask s).link.flags.get g =
      match levelDetail s g with
      | some d => ((s.link.flags.clear mask).get g).raised d s.clock.time
      | none => (s.link.flags.clear mask).get g :=
  (FlagTable.get_ofFn ..).trans (by cases levelDetail s g <;> rfl)

theorem Eight.head?_indices {α : Type} (p : α → Bool) (e : Eight α) :
    (e.indices p).head? = ([0, 1, 2, 3, 4, 5, 6, 7] : List Slot).find? fun k => p (e.get k) :=
  List.head?_filter ..

/-- Settles O43: a raise touches its own flag alone, and the two requests form the table flag by flag. -/
theorem flagsAreRaisedMaskedAndCleared : Obligations.FlagsAreRaisedMaskedAndCleared := by
  unfold Obligations.FlagsAreRaisedMaskedAndCleared
  refine ⟨fun s f g d => ⟨fun clear => ?_, fun set => ?_, fun ne => ?_, rfl⟩,
    fun s f rest mask small payload => ⟨fun head => ?mask, fun head => ?clear⟩⟩
  · rw [raise_get, if_pos rfl, FlagState.raised_of_clear clear]
  · rw [raise_get, if_pos rfl, FlagState.raised_of_set set]
  · rw [raise_get, if_neg ne]
  case mask =>
    refine ⟨s.link.flags.remask mask, exec_value (i := .noticeMask) (fun _ => rfl) head small payload, fun g => ?_⟩
    simp only [remask_get, maskBit, Bool.and_eq_true, Bool.or_eq_true, Bool.not_eq_true', and_self]
  case clear =>
    refine ⟨(clearFlagsIn mask s).link.flags, exec_value (i := .clearFlags) (fun _ => rfl) head small payload,
      fun g => ?_⟩
    dsimp only
    split
    next d holds =>
      have level : levelDetail s g = some d := by
        rw [← holds]
        cases g <;> simp only [levelDetail, Eight.head?_indices]
      rw [clearFlagsIn_get]
      simp only [level, FlagState.raised_eq, clear_enabled]
      simp only [clear_get]
      rfl
    next holds =>
      have level : levelDetail s g = none := by
        rw [← holds]
        cases g <;> simp only [levelDetail, Eight.head?_indices]
      rw [clearFlagsIn_get]
      simp only [level, clear_get]
      rfl

/-! ## The flags the arbiter and a commit leave -/

theorem mem_allFlags (f : Flag) : f ∈ allFlags := by cases f <;> decide

theorem anyEnabledSet_iff (t : FlagTable) :
    t.anyEnabledSet = true ↔ ∃ f, (t.get f).enabled = true ∧ (t.get f).set.isSome = true := by
  simp only [FlagTable.anyEnabledSet, List.any_eq_true, mem_allFlags, true_and, Bool.and_eq_true]

/-- A notice that leaves the pending set changes no mask bit and no flag (R180). -/
theorem dropNotice_get (t : FlagTable) (f g : Flag) :
    ((t.dropNotice f).get g).set = (t.get g).set ∧ ((t.dropNotice f).get g).enabled = (t.get g).enabled := by
  unfold FlagTable.dropNotice
  rw [FlagTable.get_set]
  split
  next is => exact is ▸ ⟨rfl, rfl⟩
  next => exact ⟨rfl, rfl⟩

theorem arbitrate_flags (s : State) (g : Flag) :
    ((arbitrate s).link.flags.get g).set = (s.link.flags.get g).set ∧
      ((arbitrate s).link.flags.get g).enabled = (s.link.flags.get g).enabled := by
  unfold arbitrate pickFrame
  split
  · dsimp only
    split
    · exact ⟨rfl, rfl⟩
    · split
      · exact dropNotice_get ..
      · split <;> exact ⟨rfl, rfl⟩
  · exact ⟨rfl, rfl⟩

theorem arbitrate_of_not_awake {s : State} (asleep : s.awake = false) : arbitrate s = s := by
  simp [arbitrate, asleep]

/-- The entry test of a sleep pending leaves the power state, or enters SLEEP. -/
theorem sleepTest_power (s : State) : (sleepTest s).clock.power = s.clock.power ∨ (sleepTest s).clock.power = .sleep := by
  unfold sleepTest
  split
  · split
    · split
      · split
        · exact .inr rfl
        · exact .inl rfl
      · exact .inl (cancelSleep_frame s).2.2.2.2.2.2.2.2.2.2.1
    · exact .inl rfl
  · exact .inl rfl

theorem askCommit_power (s : State) : (askCommit s).clock.power = s.clock.power ∨ (askCommit s).clock.power = .sleep := by
  unfold askCommit
  split
  · unfold beginCommit
    dsimp only
    split
    · exact .inl rfl
    · exact sleepTest_power _
  · exact .inl rfl
  · exact .inl rfl

theorem attnLow_iff (s : State) :
    s.attnLow = true ↔ (s.awake = true ∨ s.clock.power = .sleep) ∧
      ∃ f, (s.link.flags.get f).enabled = true ∧ (s.link.flags.get f).set.isSome = true := by
  simp only [State.attnLow, Bool.and_eq_true, Bool.or_eq_true, beq_iff_eq, anyEnabledSet_iff]

theorem awake_iff (s : State) : s.awake = true ↔ s.clock.power = .run ∨ s.clock.power = .doze := by
  simp only [State.awake, Bool.or_eq_true, beq_iff_eq]

theorem decidePower_power (s : State) :
    (decidePower s).clock.power = .run ∨ (decidePower s).clock.power = .doze := by
  unfold decidePower
  split
  · exact .inl rfl
  · exact .inr rfl

/-- Settles O44: the pin is a function of the power state and the flags; at the end of the settle step RESTORED is set,
and the commit asked for leaves the part awake or asleep with that flag. -/
theorem attnFollowsTheFlags : Obligations.AttnFollowsTheFlags := by
  unfold Obligations.AttnFollowsTheFlags
  refine fun s => ⟨fun on => ?_, fun off => ?_, fun settling enabled => ?_⟩
  · have up : s.awake = true ∨ s.clock.power = .sleep := by rw [awake_iff, or_assoc]; exact on
    simp only [attnLow_iff, up, true_and]
  · rw [Bool.eq_false_iff, ne_eq, attnLow_iff, awake_iff]
    rcases off with h | h | h <;> simp [h]
  · refine ⟨arbitrate (endSettle s), by simp [exec, execSettleEnd, whenDue, settling, settled], ?_⟩
    generalize shown : formLampsAfresh (decidePower (decideClutch (decideEngine (settleLines s)))) = t
    have power : t.clock.power = .run ∨ t.clock.power = .doze := by
      subst shown
      simpa using decidePower_power (decideClutch (decideEngine (settleLines s)))
    have flags : t.link.flags = s.link.flags := by
      subst shown
      unfold decidePower
      split <;> simp [settleLines, loadDoze]
    have ended : endSettle s =
        askCommit { raise .restored (.index t.clock.outcome.code) t with clock.hold := true } := by
      subst shown
      rfl
    rw [attnLow_iff, awake_iff]
    refine ⟨?_, .restored, ?_, ?_⟩
    · simp only [arbitrate_frame, ended]
      rcases askCommit_power { raise .restored (.index t.clock.outcome.code) t with clock.hold := true } with h | h
      · exact .inl (power.imp h.trans h.trans)
      · exact .inr h
    · simp only [arbitrate_flags, ended, askCommit_frame, raise_get, if_true, FlagState.raised_enabled, flags, enabled]
    · simp only [arbitrate_flags, ended, askCommit_frame, raise_get, if_true, FlagState.raised_isSome]

/-! ## The transmit arbiter (R184) -/

/-- The flags before a flag in the list of all are those with a lower number. -/
theorem allFlags_eq_append (f : Flag) :
    ∃ lower higher, allFlags = lower ++ f :: higher ∧ ∀ g ∈ lower, g.number < f.number :=
  ⟨allFlags.take (f.number - 1), allFlags.drop f.number, by cases f <;> rfl, by cases f <;> decide⟩

theorem firstNotice_of_lowest {t : FlagTable} {f : Flag} {r : Raised} (notice : (t.get f).notice = true)
    (set : (t.get f).set = some r) (lowest : ∀ g : Flag, g.number < f.number → (t.get g).notice = false) :
    t.firstNotice = some (f, r) := by
  obtain ⟨lower, higher, split, below⟩ := allFlags_eq_append f
  unfold FlagTable.firstNotice
  rw [List.findSome?_eq_some_iff]
  refine ⟨lower, f, higher, split, by simp [notice, set], fun g mem => ?_⟩
  simp [lowest g (below g mem)]

theorem firstNotice_of_none {t : FlagTable} (none_ : ∀ g, (t.get g).notice = false) : t.firstNotice = none := by
  unfold FlagTable.firstNotice
  rw [List.findSome?_eq_none_iff]
  intro g _
  simp [none_ g]

/-- The arbiter with the line free, the part awake and the hold clear. -/
theorem arbitrate_of_free {s : State} (free : s.link.tx = none) (awake : s.awake = true) (clear : s.clock.hold = false) :
    arbitrate s = { s with link := pickFrame s.hires.secured s.link } := by
  simp [arbitrate, free, awake, clear]

/-- Settles O41: the arbiter's pick, branch by branch of `pickFrame`. -/
theorem arbiterPicksTheNextFrame : Obligations.ArbiterPicksTheNextFrame := by
  unfold Obligations.ArbiterPicksTheNextFrame
  refine fun s => ⟨fun busy => ?busy, fun free awake clear => ?free⟩
  case busy =>
    unfold arbitrate
    rw [if_neg]
    rcases busy with sending | asleep | held
    · simp [Option.isNone_iff_eq_none, sending]
    · simp [asleep]
    · simp [held]
  case free =>
    rw [arbitrate_of_free free awake clear]
    refine ⟨fun some_ => ?_, fun f r none_ notice set lowest => ?_, fun fs none_ quiet report => ?_,
      fun none_ quiet absent => ?_⟩
    · cases first : firstReply s.link.ready with
      | none => exact absurd (firstReply_eq_none.mp first) some_
      | some r =>
        obtain ⟨mem, before⟩ := firstReply_some first
        refine ⟨r, mem, before, ?_⟩
        simp only [pickFrame, first, replyFrame]
    · have first : firstReply s.link.ready = none := firstReply_eq_none.mpr none_
      simp only [pickFrame, first, firstNotice_of_lowest notice set lowest, FlagTable.dropNotice, set, noticeFrame]
    · have first : firstReply s.link.ready = none := firstReply_eq_none.mpr none_
      simp only [pickFrame, first, firstNotice_of_none quiet, report, reportFrame]
    · have first : firstReply s.link.ready = none := firstReply_eq_none.mpr none_
      simp only [pickFrame, first, firstNotice_of_none quiet, absent]

/-! ## The end of a transmission (R184) -/

theorem exec_transmitComplete {s : State} {x : Tx} (sending : s.link.tx = some x) :
    exec .transmitComplete s = .next (arbitrate (frameSent x.source { s with link.tx := none })) := by
  simp only [exec, execTransmitComplete, sending, settled]

/-- What the end of a frame does beyond freeing the line is nothing, but for two sources. -/
theorem frameSent_of_ne {x : TxSource} (start : x ≠ .reply .startUp) (sleep : x ≠ .reply .sleepLive) (s : State) :
    frameSent x s = s := by
  unfold frameSent
  split
  · exact absurd rfl start
  · exact absurd rfl sleep
  all_goals rfl

/-- Settles O42: the three kinds of source that `frameSent` tells apart. -/
theorem transmissionsEnd : Obligations.TransmissionsEnd := by
  unfold Obligations.TransmissionsEnd
  intro s x sending
  rw [exec_transmitComplete sending]
  refine ⟨fun start sleep => ?_, fun start => ?_, fun p sleep pending stage => ?_⟩
  · rw [frameSent_of_ne start sleep]
  · rw [start]
    refine ⟨_, rfl, ?_⟩
    have held : arbitrate (stopped .restore { s with link.tx := none }) = stopped .restore { s with link.tx := none } :=
      arbitrate_of_not_awake rfl
    simp only [frameSent, held]
    exact ⟨rfl, rfl, rfl, rfl, rfl, rfl, rfl, rfl⟩
  · rw [sleep]
    simp only [frameSent, sleepReplySent, pending, Option.map_some, stage, if_true]

/-! ## The stream (R183) -/

/-- Settles O47: the branches of `streamTally`, and those of STREAM. -/
theorem streamIsSetAndReports : Obligations.StreamIsSetAndReports := by
  unfold Obligations.StreamIsSetAndReports
  refine ⟨fun s p n k left running => ⟨fun early => ?_, fun due unending => ?_, fun due more => ?_, fun due last => ?_⟩,
    fun s f rest period count head payload small small' => ?request⟩
  · simp only [streamTally, running, early, if_true]
  · simp only [streamTally, running, Nat.not_lt.mpr due, if_false, unending]
  · have some_ : ¬ n + 2 ≤ 1 := by omega
    simp only [streamTally, running, Nat.not_lt.mpr due, if_false, more, some_]
    rfl
  · simp only [streamTally, running, Nat.not_lt.mpr due, if_false, last, le_refl, if_true]
  case request =>
    have split : splitFields [2, 2] f.payload = some [period, count] := by
      rw [payload, splitFields_bytesOf small, splitFields_one small']
      rfl
    rw [exec_fields (i := .stream) (fun _ => rfl) head split]
    refine ⟨fun above => ?_, fun stop => ?_, fun pos within => ?_⟩
    · simp only [List.getD_cons_zero, streamWork, above, if_true, refuse_taken]
    · subst stop
      rfl
    · have some_ : period ≠ 0 := by omega
      simp only [List.getD_cons_zero, List.getD_cons_succ, streamWork, Nat.not_lt.mpr within, some_, if_false]
      rfl

end Sys2Proof.Machine

section
/-! What a step consists of: the events that time brings, and the one change that a request makes before its reply. A
law of the state is proved of these pieces, and the two theorems of this part carry it to whole commands. -/

namespace Sys2Proof.Machine

set_option Elab.async false

open Sys2Proof Sys2Proof.Safety

/-! ## Events -/

/-- A property that every event which may fall due keeps, and the passing of time between events. -/
structure EventLaw (P : State → Prop) : Prop where
  arbitrate : ∀ {s}, P s → P (arbitrate s)
  levelChange : ∀ l b {s}, P s → P (takeLevelChange l b s)
  confirm : ∀ {s}, P s → P (takeConfirmExpiry s)
  lock : ∀ {s}, P s → P (takeLockExpiry s)
  freshness : ∀ {s}, P s → P (takeFreshnessExpiry s)
  doze : ∀ {s}, P s → P (takeDozeExpiry s)
  lampCheck : ∀ {s}, P s → P (takeLampCheckEnd s)
  lampBoundary : ∀ m {s}, P s → P (takeLampBoundary m s)
  tally : ∀ o {s}, P s → P (takeTally o s)
  checkpoint : ∀ {s}, P s → P (takeCheckpointTest s)
  stall : ∀ sh b {s}, P s → P (takeStall sh b s)
  pass : ∀ us {s}, P s →
    P (instantOver { s with inputs.captureUs := s.inputs.captureUs + us, inputs.tickUs := s.inputs.tickUs + us })

namespace EventLaw

variable {P : State → Prop}

theorem catchUp (E : EventLaw P) {s : State} (due : State → Bool) {take : State → State}
    (keeps : ∀ {t}, P t → P (take t)) (h : P s) : P (catchUp due take s) := by
  unfold Machine.catchUp
  split
  · exact E.arbitrate (keeps h)
  · exact h

theorem dueEvents (E : EventLaw P) : ∀ e ∈ dueEvents, ∀ {t}, P t → P (e.2 t) := by
  simp only [Machine.dueEvents, List.forall_mem_cons, List.not_mem_nil, false_implies, implies_true, and_true]
  exact ⟨E.levelChange _ _, E.levelChange _ _, E.levelChange _ _, E.levelChange _ _, E.confirm, E.lock, E.freshness,
    E.doze, E.lampCheck, E.lampBoundary _, E.lampBoundary _, E.tally _, E.checkpoint⟩

theorem caughtUp (E : EventLaw P) (es : List ((State → Bool) × (State → State)))
    (keeps : ∀ e ∈ es, ∀ {t}, P t → P (e.2 t)) (s : State) (h : P s) :
    P (es.foldl (fun t e => Machine.catchUp e.1 e.2 t) s) := by
  induction es generalizing s with
  | nil => exact h
  | cons e es ih =>
    exact ih (fun d hd => keeps d (List.mem_cons_of_mem _ hd)) _ (E.catchUp _ (keeps e List.mem_cons_self) h)

theorem takeDue (E : EventLaw P) {s : State} (h : P s) : P (takeDue s) :=
  E.caughtUp Machine.dueEvents E.dueEvents s h

theorem takeOverdueStall (E : EventLaw P) {s : State} (h : P s) : P (takeOverdueStall s) := by
  unfold Machine.takeOverdueStall
  split
  · exact h
  · exact E.stall _ _ h

theorem catchStall (E : EventLaw P) {s : State} (h : P s) : P (catchStall s) := E.catchUp _ E.takeOverdueStall h

theorem passTime (E : EventLaw P) (us : Nat) {s : State} (h : P s) : P (passTime us s) := by
  unfold Machine.passTime
  split
  · exact h
  · exact E.catchStall (E.catchStall (E.catchStall (E.pass us (E.takeDue h))))

theorem passTo (E : EventLaw P) (us : Nat) {s : State} (h : P s) : P (passTo us s) := E.passTime _ h

theorem edgeAt (E : EventLaw P) (sh : Shaft) (t : Transition) (us : Nat) (b : Bool)
    (edge : ∀ {s}, takesEdges sh s = true → P s → P (takeEdge sh b s)) {s : State} (h : P s) :
    P (edgeAt sh t us b s) := by
  unfold Machine.edgeAt
  dsimp only
  split
  · rename_i hc
    exact edge (by simp_all) (E.passTo us h)
  · exact E.passTo us h

end EventLaw

theorem after_settled {P : State → Prop} {s : State} (h : P (arbitrate s)) : After P (settled s) := after_next h

theorem after_whenDue {P : State → Prop} {s : State} {due : Bool} {work : State → State} (h : P s)
    (hw : due = true → P (arbitrate (work s))) : After P (whenDue due work s) := by
  unfold whenDue
  split
  · exact after_settled (hw ‹_›)
  · exact after_next h

/-! ## Requests -/

/-- The changes that the taking of a request may make to the state, before the reply is formed. A refusal, and a request
that finds nothing to do, changes nothing. -/
inductive Change : Instr → Frame → State → State → Prop
  | none (c f s) : Change c f s s
  | opened (f s key) (setup : s.inSetup = false) (next : s.hires.next < exhausted) :
      Change .openHire f s (openNewHire key s)
  | closed (f s) : Change .closeHire f s (closeOpenHire .hostClose s)
  | suspended (f s) : Change .suspendHire f s (setSuspended true s)
  | resumed (f s) : Change .resumeHire f s (setSuspended false s)
  | released (f s n) : Change .releaseHistory f s { s with hires := releaseThrough n s.hires }
  | pooled (f s) : Change .releaseIdle f s { s with hires := releasePool s.hires }
  | declared (f s l c) : Change .declareCondition f s (declare l c s)
  | serviced (f s k) : Change .recordService f s (changeSlot k (SlotMeters.serviced s.clock.time) s)
  | installed (f s k n) : Change .installUnit f s (changeSlot k (SlotMeters.installedUnit n s.clock.time) s)
  | setup (f s) (hire : s.hires.current = Option.none) :
      Change .enterSetup f s { s with config.staging := some (s.config.staging.getD s.config.armed) }
  | item (f s st i v) (staging : s.config.staging = some st) (payload : itemOfPayload f.payload = .ok (i, v)) :
      Change .setItem f s { s with config.staging := some (storeItem st v) }
  | unchanged (f s) : Change .arm f s { s with config.staging := Option.none }
  | swapped (f s new) (staging : s.config.staging = some new) : Change .arm f s (swap new s)
  | abandoned (f s) : Change .abandon f s { s with config.staging := Option.none }
  | defaults (f s) (setup : s.inSetup = true) :
      Change .loadDefaults f s { s with config.staging := some factorySettings }
  | cleared (f s) (setup : s.inSetup = true) (ignition : s.inputs.ign.level = false) :
      Change .clearAccounting f s (clearAccounts s)
  | slept (f s) : Change .sleep f s (pendSleep s)
  | restarted (f s) : Change .restart f s { s with link.restartTaken := true }
  | masked (f s mask) : Change .noticeMask f s { s with link.flags := s.link.flags.remask mask }
  | flagsCleared (f s mask) : Change .clearFlags f s (clearFlagsIn mask s)
  | streamStopped (f s) : Change .stream f s { s with link.stream := Option.none, link.report := Option.none }
  | streamStarted (f s st) : Change .stream f s { s with link.stream := some st }

/-- How the taking of a frame ends: with a reply at once, with a reply that waits for a commit, or, for a frame that is
dropped, with none. -/
inductive Ends (f : Frame) (u : State) : State → Prop
  | answered (code fields) : Ends f u (answer f code fields u)
  | deferred (form after) : Ends f u (deferReply f form after u)
  | dropped : Ends f u u

/-- What the taking of a frame does: a change of the request, and an end. -/
def Work (c : Instr) (f : Frame) (s t : State) : Prop := ∃ u, Change c f s u ∧ Ends f u t

theorem Work.answer {c : Instr} {f : Frame} {s u : State} (code : ReplyCode) (fields : List Field)
    (h : Change c f s u) : Work c f s (answer f code fields u) := ⟨u, h, .answered _ _⟩

theorem Work.deferReply {c : Instr} {f : Frame} {s u : State} (form : DeferredForm) (after : AfterReply)
    (h : Change c f s u) : Work c f s (deferReply f form after u) := ⟨u, h, .deferred _ _⟩

theorem Work.refuse (c : Instr) (f : Frame) (s : State) (code : ReplyCode) : Work c f s (refuse f code s) :=
  Work.answer _ _ (.none c f s)

theorem Work.answerDone {c : Instr} {f : Frame} {s u : State} (fields : List Field) (h : Change c f s u) :
    Work c f s (answerDone f fields u) := Work.answer _ _ h

theorem Work.noPayload {c : Instr} {work : Frame → State → State} (h : ∀ f s, Work c f s (work f s)) (f : Frame)
    (s : State) : Work c f s (noPayload work f s) := by
  unfold Machine.noPayload
  split
  · exact h f s
  · exact Work.refuse ..

theorem Work.withFields {c : Instr} {ws : List Nat} {work : Frame → List Nat → State → State}
    (h : ∀ f vs s, Work c f s (work f vs s)) (f : Frame) (s : State) : Work c f s (withFields ws work f s) := by
  unfold Machine.withFields
  split
  · exact h f _ s
  · exact Work.refuse ..

theorem Work.onSlot {c : Instr} {n : Nat} {work : Frame → Slot → State → State}
    (h : ∀ f k s, Work c f s (work f k s)) (f : Frame) (s : State) : Work c f s (onSlot n work f s) := by
  unfold Machine.onSlot
  split
  · exact h f _ s
  · exact Work.refuse ..

theorem openHireWork_works (key : Nat) (f : Frame) (s : State) : Work .openHire f s (openHireWork f key s) := by
  unfold openHireWork
  split
  · exact Work.refuse ..
  · split
    · exact Work.refuse ..
    · exact Work.deferReply _ _ (.opened f s key (by simp_all) (by omega))

theorem closeHireWork_works (f : Frame) (s : State) : Work .closeHire f s (closeHireWork f s) := by
  unfold closeHireWork
  split
  · exact Work.refuse ..
  · exact Work.deferReply _ _ (.closed f s)

theorem suspendWork_works {c : Instr} {b : Bool} (f : Frame) (s : State) (h : Change c f s (setSuspended b s)) :
    Work c f s (suspendWork b f s) := by
  unfold suspendWork
  split
  · exact Work.refuse ..
  · split
    · exact Work.answerDone _ (.none ..)
    · exact Work.deferReply _ _ h

theorem releaseHistoryWork_works (n : Nat) (f : Frame) (s : State) :
    Work .releaseHistory f s (releaseHistoryWork f n s) := by
  unfold releaseHistoryWork
  dsimp only
  split
  · exact Work.answerDone _ (.none ..)
  · exact Work.deferReply _ _ (.released f s n)

theorem declareWork_works (a b v : Nat) (f : Frame) (s : State) :
    Work .declareCondition f s (declareWork f a b v s) := by
  unfold declareWork
  split
  · exact Work.answerDone _ (.declared f s _ _)
  · exact Work.refuse ..

theorem enterSetupWork_works (f : Frame) (s : State) : Work .enterSetup f s (enterSetupWork f s) := by
  unfold enterSetupWork
  split
  · exact Work.refuse ..
  · exact Work.answerDone _ (.setup f s (by simp_all))

theorem setItemWork_works (f : Frame) (s : State) : Work .setItem f s (setItemWork f s) := by
  unfold setItemWork
  split
  · exact Work.refuse ..
  · split
    · exact Work.refuse ..
    · exact Work.answerDone _ (.item f s _ _ _ ‹_› ‹_›)

theorem readItemWork_works (n : Nat) (f : Frame) (s : State) : Work .readItem f s (readItemWork f n s) := by
  unfold readItemWork
  split
  · exact Work.refuse ..
  · exact Work.answerDone _ (.none ..)

theorem armWork_works (f : Frame) (s : State) : Work .arm f s (armWork f s) := by
  unfold armWork
  split
  · exact Work.refuse ..
  · split
    · exact Work.answer _ _ (.none ..)
    · split
      · exact Work.answerDone _ (.unchanged f s)
      · exact Work.deferReply _ _ (.swapped f s _ ‹_›)

theorem loadDefaultsWork_works (f : Frame) (s : State) : Work .loadDefaults f s (loadDefaultsWork f s) := by
  unfold loadDefaultsWork
  split
  · exact Work.answerDone _ (.defaults f s ‹_›)
  · exact Work.refuse ..

theorem clearAccountingWork_works (f : Frame) (s : State) : Work .clearAccounting f s (clearAccountingWork f s) := by
  unfold clearAccountingWork
  split
  · exact Work.refuse ..
  · split
    · exact Work.refuse ..
    · exact Work.deferReply _ _ (.cleared f s (by simp_all) (by simp_all))

theorem sleepWork_works (f : Frame) (s : State) : Work .sleep f s (sleepWork f s) := by
  unfold sleepWork
  split
  · exact Work.refuse ..
  · split
    · exact Work.refuse ..
    · exact Work.deferReply _ _ (.slept f s)

theorem streamWork_works (a b : Nat) (f : Frame) (s : State) : Work .stream f s (streamWork f a b s) := by
  unfold streamWork
  split
  · exact Work.refuse ..
  · split
    · exact Work.answerDone _ (.streamStopped f s)
    · exact Work.answerDone _ (.streamStarted f s _)

/-- The commands that take the frame at the head of the receive queue. -/
def takesFrame (c : Instr) : Bool :=
  (kindOfRequest c).isSome || c == .unknownRequest || c == .replyKindFrameDrop

/-- A command that takes a frame is the taking of the frame at the head of the queue, and its work a change of the
request and an end. -/
theorem exec_eq_takeHead {c : Instr} (hc : takesFrame c = true) (s : State) :
    ∃ mine work, exec c s = takeHead mine work s ∧ ∀ f u, Work c f u (work f u) := by
  cases c with
    simp only [exec, execIdentify, execReadStatus, execReadMeters, execReadIdle, execReadSlot, execReadHire,
      execReadHistory, execReadStartLog, execOpenHire, execCloseHire, execSuspendHire, execResumeHire,
      execReleaseHistory, execReleaseIdle, execDeclareCondition, execRecordService, execInstallUnit, execEnterSetup,
      execSetItem, execReadItem, execArm, execAbandon, execLoadDefaults, execClearAccounting, execCheckpoint,
      execSleep, execRestart, execNoticeMask, execClearFlags, execStream, execUnknownRequest,
      execReplyKindFrameDrop, takeKind]
  | identify | readStatus | readMeters | readIdle =>
    exact ⟨_, _, rfl, Work.noPayload fun f s => Work.answerDone _ (.none ..)⟩
  | readSlot => exact ⟨_, _, rfl, Work.withFields fun f vs s => Work.onSlot (fun f k s => Work.answerDone _ (.none ..)) f s⟩
  | readHire =>
    refine ⟨_, _, rfl, Work.noPayload fun f s => ?_⟩
    unfold readHireWork
    split
    · exact Work.refuse ..
    · exact Work.answerDone _ (.none ..)
  | readHistory =>
    refine ⟨_, _, rfl, Work.withFields fun f vs s => ?_⟩
    unfold readHistoryWork
    split
    · exact Work.refuse ..
    · exact Work.answerDone _ (.none ..)
  | readStartLog =>
    refine ⟨_, _, rfl, Work.withFields fun f vs s => ?_⟩
    unfold readStartLogWork
    split
    · exact Work.refuse ..
    · exact Work.answerDone _ (.none ..)
  | openHire => exact ⟨_, _, rfl, Work.withFields fun f vs s => openHireWork_works _ f s⟩
  | closeHire => exact ⟨_, _, rfl, Work.noPayload closeHireWork_works⟩
  | suspendHire => exact ⟨_, _, rfl, Work.noPayload fun f s => suspendWork_works f s (.suspended f s)⟩
  | resumeHire => exact ⟨_, _, rfl, Work.noPayload fun f s => suspendWork_works f s (.resumed f s)⟩
  | releaseHistory => exact ⟨_, _, rfl, Work.withFields fun f vs s => releaseHistoryWork_works _ f s⟩
  | releaseIdle => exact ⟨_, _, rfl, Work.noPayload fun f s => Work.deferReply _ _ (.pooled f s)⟩
  | declareCondition => exact ⟨_, _, rfl, Work.withFields fun f vs s => declareWork_works _ _ _ f s⟩
  | recordService =>
    exact ⟨_, _, rfl, Work.withFields fun f vs s =>
      Work.onSlot (fun f k s => Work.deferReply _ _ (.serviced f s k)) f s⟩
  | installUnit =>
    exact ⟨_, _, rfl, Work.withFields fun f vs s =>
      Work.onSlot (fun f k s => Work.deferReply _ _ (.installed f s k _)) f s⟩
  | enterSetup => exact ⟨_, _, rfl, Work.noPayload enterSetupWork_works⟩
  | setItem => exact ⟨_, _, rfl, setItemWork_works⟩
  | readItem => exact ⟨_, _, rfl, Work.withFields fun f vs s => readItemWork_works _ f s⟩
  | arm => exact ⟨_, _, rfl, Work.noPayload armWork_works⟩
  | abandon => exact ⟨_, _, rfl, Work.noPayload fun f s => Work.answerDone _ (.abandoned f s)⟩
  | loadDefaults => exact ⟨_, _, rfl, Work.noPayload loadDefaultsWork_works⟩
  | clearAccounting => exact ⟨_, _, rfl, Work.noPayload clearAccountingWork_works⟩
  | checkpoint => exact ⟨_, _, rfl, Work.noPayload fun f s => Work.deferReply _ _ (.none ..)⟩
  | sleep => exact ⟨_, _, rfl, Work.noPayload sleepWork_works⟩
  | restart => exact ⟨_, _, rfl, Work.noPayload fun f s => Work.deferReply _ _ (.restarted f s)⟩
  | noticeMask => exact ⟨_, _, rfl, Work.withFields fun f vs s => Work.answerDone _ (.masked f s _)⟩
  | clearFlags => exact ⟨_, _, rfl, Work.withFields fun f vs s => Work.answerDone _ (.flagsCleared f s _)⟩
  | stream => exact ⟨_, _, rfl, Work.withFields fun f vs s => streamWork_works _ _ f s⟩
  | unknownRequest => exact ⟨_, _, rfl, fun f s => Work.refuse ..⟩
  | replyKindFrameDrop => exact ⟨_, _, rfl, fun f s => ⟨s, .none .., .dropped⟩⟩
  | _ => simp [takesFrame, kindOfRequest] at hc

/-- What a command that takes a frame does (R178): nothing, or, the frame having left the queue, its work. -/
theorem exec_takesFrame {c : Instr} (hc : takesFrame c = true) {P : State → Prop} {s : State} (same : P s)
    (took : ∀ f rest t, s.link.queue = f :: rest → s.awake = true → s.link.entries < 4 →
      Work c f { s with link.queue := rest } t → P (arbitrate t)) :
    After P (exec c s) := by
  obtain ⟨mine, work, takes, works⟩ := exec_eq_takeHead hc s
  rw [takes]
  unfold takeHead
  split
  · exact after_next same
  · rename_i f rest hq
    split
    · rename_i ht
      simp only [Bool.and_eq_true, State.canTake, decide_eq_true_eq] at ht
      obtain ⟨_, ⟨ha, _⟩, he⟩ := ht
      exact after_settled (took f rest _ hq ha he (works f _))
    · exact after_next same

end Sys2Proof.Machine
end

section
/-! What an event of the vehicle leaves as it is, whatever it is: the relation `Steady`, met by every shared operation,
and carried through the passing of time. -/

namespace Sys2Proof.Machine

set_option Elab.async false

open Sys2Proof Sys2Proof.Safety

/-- Flags to which raises alone have been done: the mask stands, and a set flag stands as it is (R180). -/
def FlagTable.Grows (a b : FlagTable) : Prop :=
  ∀ f, (b.get f).enabled = (a.get f).enabled ∧ ((a.get f).set.isSome = true → (b.get f).set = (a.get f).set)

theorem FlagTable.Grows.refl (a : FlagTable) : a.Grows a := fun _ => ⟨rfl, fun _ => rfl⟩

theorem FlagTable.Grows.trans {a b c : FlagTable} (h : a.Grows b) (k : b.Grows c) : a.Grows c := by
  intro f
  obtain ⟨h1, h2⟩ := h f
  obtain ⟨k1, k2⟩ := k f
  refine ⟨k1.trans h1, fun hs => ?_⟩
  rw [k2 (by rw [h2 hs]; exact hs), h2 hs]

/-- The history and the start log are within their capacities (R56, R122). -/
def State.Fits (s : State) : Prop := s.hires.history.length ≤ historyMax ∧ s.starts.log.length ≤ 32

/-- An image that a restore could bring back was one before, or has been taken from the state meanwhile: it holds the
armed set, and lists that fit if those of the state did. -/
def ImagesFrom (s t : State) : Prop :=
  ∀ i ∈ imagesOf t, i ∈ imagesOf s ∨ (i.armed = s.config.armed ∧ (s.Fits → imageFits i = true))

/-- What every event of the vehicle leaves as it is. -/
structure Steady (s t : State) : Prop where
  config : t.config = s.config
  areas : t.store.areas = s.store.areas
  usable : t.store.usable = s.store.usable
  faultSeen : t.store.faultSeen = s.store.faultSeen
  secured : t.hires.secured = s.hires.secured
  settled : t.hires.settled = s.hires.settled
  released : t.hires.released = s.hires.released
  next : t.hires.next = s.hires.next
  load : t.duty.load = s.duty.load
  coolant : t.duty.coolant = s.duty.coolant
  supplyOn : t.clock.supplyOn = s.clock.supplyOn
  resetnHigh : t.clock.resetnHigh = s.clock.resetnHigh
  baudselHigh : t.link.baudselHigh = s.link.baudselHigh
  pending : t.pending = s.pending
  queue : t.link.queue = s.link.queue
  flags : s.link.flags.Grows t.link.flags
  entries : t.link.entries ≤ s.link.entries
  fits : s.Fits → t.Fits
  images : ImagesFrom s t

theorem imagesFrom_of_eq {s t : State} (ha : t.store.areas = s.store.areas) (hc : t.store.commit = s.store.commit) :
    ImagesFrom s t := by
  intro i hi
  rw [imagesOf, ha, hc] at hi
  exact .inl hi

namespace Steady

theorem trans {s t u : State} (h : Steady s t) (k : Steady t u) : Steady s u where
  config := k.config.trans h.config
  areas := k.areas.trans h.areas
  usable := k.usable.trans h.usable
  faultSeen := k.faultSeen.trans h.faultSeen
  secured := k.secured.trans h.secured
  settled := k.settled.trans h.settled
  released := k.released.trans h.released
  next := k.next.trans h.next
  load := k.load.trans h.load
  coolant := k.coolant.trans h.coolant
  supplyOn := k.supplyOn.trans h.supplyOn
  resetnHigh := k.resetnHigh.trans h.resetnHigh
  baudselHigh := k.baudselHigh.trans h.baudselHigh
  pending := k.pending.trans h.pending
  queue := k.queue.trans h.queue
  flags := h.flags.trans k.flags
  entries := k.entries.trans h.entries
  fits := k.fits ∘ h.fits
  images := by
    intro i hi
    rcases k.images i hi with hi | ⟨h1, h2⟩
    · exact h.images i hi
    · exact .inr ⟨h1.trans (congrArg Configuration.armed h.config), h2 ∘ h.fits⟩

/-- An operation that leaves the fields of `Steady` and its lists as they are. -/
theorem same {s t : State} (config : t.config = s.config := by simp)
    (areas : t.store.areas = s.store.areas := by simp) (usable : t.store.usable = s.store.usable := by simp)
    (faultSeen : t.store.faultSeen = s.store.faultSeen := by simp)
    (commit : t.store.commit = s.store.commit := by simp)
    (secured : t.hires.secured = s.hires.secured := by simp)
    (settled : t.hires.settled = s.hires.settled := by simp)
    (released : t.hires.released = s.hires.released := by simp) (next : t.hires.next = s.hires.next := by simp)
    (history : t.hires.history = s.hires.history := by simp) (log : t.starts.log = s.starts.log := by simp)
    (load : t.duty.load = s.duty.load := by simp) (coolant : t.duty.coolant = s.duty.coolant := by simp)
    (supplyOn : t.clock.supplyOn = s.clock.supplyOn := by simp)
    (resetnHigh : t.clock.resetnHigh = s.clock.resetnHigh := by simp)
    (baudselHigh : t.link.baudselHigh = s.link.baudselHigh := by simp) (pending : t.pending = s.pending := by simp)
    (queue : t.link.queue = s.link.queue := by simp) (flags : t.link.flags = s.link.flags := by simp)
    (entries : t.link.entries = s.link.entries := by simp [Link.entries]) : Steady s t :=
  ⟨config, areas, usable, faultSeen, secured, settled, released, next, load, coolant, supplyOn, resetnHigh, baudselHigh,
    pending, queue, flags ▸ .refl _, entries.le, by simp [State.Fits, history, log], imagesFrom_of_eq areas commit⟩

theorem refl (s : State) : Steady s s := .same

end Steady

theorem FlagState.raised_grows (st : FlagState) (d : Detail) (t : MeterTime) :
    (st.raised d t).enabled = st.enabled ∧ (st.set.isSome = true → (st.raised d t).set = st.set) := by
  unfold FlagState.raised
  split <;> simp_all

theorem raise_grows (f : Flag) (d : Detail) (s : State) : s.link.flags.Grows (raise f d s).link.flags := by
  intro g
  simp only [raise, FlagTable.get_set]
  split
  · subst g
    exact FlagState.raised_grows ..
  · exact ⟨rfl, fun _ => rfl⟩

theorem raiseForSlots_grows (f : Flag) (ks : List Slot) (s : State) :
    s.link.flags.Grows (raiseForSlots f ks s).link.flags := by
  unfold raiseForSlots
  split
  · exact .refl _
  · exact raise_grows _ _ s
  · exact raise_grows f _ { s with freePicks := s.freePicks + 1 }

theorem raiseMarks_grows (before : Eight SlotMeters) (s : State) :
    s.link.flags.Grows (raiseMarks before s).link.flags := by
  unfold raiseMarks
  exact ((raiseForSlots_grows _ _ s).trans (raiseForSlots_grows _ _ _)).trans (raiseForSlots_grows _ _ _)

theorem charge_grows (raws : Eight (Option Nat)) (s : State) : s.link.flags.Grows (charge raws s).link.flags := by
  simp only [charge, marksChanged, formLamps_frame]
  exact raiseMarks_grows _ { s with
    table.slots := chargeAll s.config.armed.slots raws s.table.slots,
    hires := creditTarget (deliveredAll raws s.table.slots) s.hires }

theorem Steady.raise (f : Flag) (d : Detail) (s : State) : Steady s (raise f d s) :=
  { (.same (t := { (Machine.raise f d s) with link.flags := s.link.flags }) : Steady s _) with
    flags := raise_grows f d s }

theorem Steady.charge (raws : Eight (Option Nat)) (s : State) : Steady s (charge raws s) :=
  { (.same (t := { (Machine.charge raws s) with link.flags := s.link.flags }) : Steady s _) with
    flags := charge_grows raws s }

theorem Steady.raiseMarks (before : Eight SlotMeters) (s : State) : Steady s (raiseMarks before s) :=
  { (.same (t := { (Machine.raiseMarks before s) with link.flags := s.link.flags }) : Steady s _) with
    flags := raiseMarks_grows before s }

/-! ## Start attempts, engine and clutch -/

theorem Steady.count (f : HireCounters → HireCounters) (s : State) : Steady s (s.count f) := .same

theorem Steady.onMeters (f : PlainMeters → PlainMeters) (s : State) : Steady s (onMeters f s) := .same

theorem Steady.logStart (a : Attempt) (c : AttemptClass) (s : State) : Steady s (logStart a c s) := by
  unfold Machine.logStart
  split
  · exact .refl s
  · refine Steady.trans (t := { s with
      starts.log := (startEntry a c s.starts.next :: s.starts.log).take 32,
      starts.next := nextNumber s.starts.next }) ?_ (.raise _ _ _)
    exact { Steady.refl s with
      fits := fun h => ⟨h.1, by simp only [List.length_take]; omega⟩ }

theorem Steady.chargeStart (c : AttemptClass) (n : Nat) (a : Conditions) (s : State) :
    Steady s (chargeStart c n a s) := .charge _ s

theorem Steady.closeAttempt (c : AttemptClass) (s : State) : Steady s (closeAttempt c s) := by
  unfold Machine.closeAttempt
  split
  · exact .refl s
  · rename_i a _
    have counted : Steady s (countStart c s) := .same
    have logged := (counted.trans (.chargeStart c a.tenths
      (startConditions s.config.armed.conditions.lowBatteryLimit a a.closedMin) _)).trans (.logStart a c _)
    exact logged.trans .same

theorem Steady.moveEngine (e : Engine) (s : State) : Steady s (moveEngine e s) := .same

theorem Steady.enterReady (s : State) : Steady s (enterReady s) := .same

theorem Steady.ignitionCut (s : State) : Steady s (ignitionCut s) := .same

theorem Steady.openAttempt (k : AttemptKind) (s : State) : Steady s (openAttempt k s) := .same

theorem Steady.engineIgnition (b : Bool) (s : State) : Steady s (engineIgnition b s) := by
  unfold Machine.engineIgnition
  split
  · exact .enterReady s
  · exact .moveEngine _ s
  · exact (Steady.closeAttempt _ s).trans (.ignitionCut _)
  · exact (Steady.closeAttempt _ s).trans (.ignitionCut _)
  · exact (Steady.closeAttempt _ s).trans (.moveEngine _ _)
  · split
    · dsimp only
      split
      · exact (Steady.moveEngine _ s).trans (.openAttempt _ _)
      · exact .moveEngine _ s
    · exact .enterReady s
  · exact .refl s

theorem Steady.engineCrank (b : Bool) (s : State) : Steady s (engineCrank b s) := by
  unfold Machine.engineCrank
  split
  · exact .same
  · split
    · exact .same
    · exact (Steady.closeAttempt _ s).trans (.enterReady _)
  · exact .same
  · exact .openAttempt _ s
  · exact .closeAttempt _ s
  · exact .refl s

theorem Steady.engineStall (s : State) : Steady s (engineStall s) :=
  (((Steady.closeAttempt _ s).trans (.onMeters _ _)).trans (.count _ _)).trans (.enterReady _)

theorem Steady.engineSpeed (s : State) : Steady s (engineSpeed s) := by
  unfold Machine.engineSpeed
  split
  · split
    · exact .same
    · exact .refl s
  · split
    · exact .refl s
    · exact (Steady.closeAttempt _ s).trans (.enterReady _)
  · split
    · exact .refl s
    · exact .engineStall s
  · split
    · exact .refl s
    · exact .moveEngine _ s
  · exact .refl s
  · exact .refl s

theorem Steady.clutchSpeed (s : State) : Steady s (clutchSpeed s) := .same

theorem Steady.clutchPedal (b : Bool) (s : State) : Steady s (clutchPedal b s) := .same

theorem Steady.speedChanged (sh : Shaft) (b : Bool) (s : State) : Steady s (speedChanged sh b s) := by
  unfold Machine.speedChanged
  split
  · split
    · split
      · exact (Steady.clutchSpeed s).trans (.engineSpeed _)
      · exact (Steady.engineSpeed s).trans (.clutchSpeed _)
    · exact .clutchSpeed s
    · exact .refl s
  · exact .refl s

theorem Steady.takeConfirmExpiry (s : State) : Steady s (takeConfirmExpiry s) := by
  unfold Machine.takeConfirmExpiry
  split
  · exact (Steady.closeAttempt _ s).trans (.moveEngine _ _)
  · exact .refl s

theorem Steady.takeLockExpiry (s : State) : Steady s (takeLockExpiry s) := .same

/-! ## Channels -/

theorem Steady.putChannel (sh : Shaft) (v : Channel) (b : Bool) (s : State) : Steady s (putChannel sh v b s) := by
  have put : Steady s { s with inputs := s.inputs.setChannel sh v } := .same
  unfold Machine.putChannel
  dsimp only
  split
  · exact put
  · exact put.trans (.speedChanged _ _ _)

theorem Steady.takeStall (sh : Shaft) (b : Bool) (s : State) : Steady s (takeStall sh b s) := by
  unfold Machine.takeStall
  dsimp only
  split
  · exact .refl s
  · split
    · exact .putChannel _ _ _ _
    · exact .refl s

/-! ## The tally -/

theorem Steady.engageGear (g : Gear) (s : State) : Steady s (engageGear g s) :=
  ((Steady.onMeters _ s).trans (.count _ _)).trans (.charge _ _)

theorem Steady.trackGear (s : State) : Steady s (trackGear s) := by
  unfold Machine.trackGear
  dsimp only
  generalize (if candidateGear s = s.duty.heldGear then min (s.duty.runCount + 1) 30 else 1) = run
  split
  · split
    · exact .same
    · exact Steady.trans (t := { s with
        duty.heldGear := candidateGear s, duty.runCount := run, duty.gear := candidateGear s }) .same (.engageGear _ _)
  · exact .same

theorem Steady.streamTally (s : State) : Steady s (streamTally s) := by
  unfold Machine.streamTally
  split
  · exact .refl s
  · split
    · exact .same
    · split
      · exact .same
      · split
        · exact Steady.trans (t := { s with link.report := some (reportFields s), link.stream := none }) .same
            (.raise _ _ _)
        · exact .same

theorem Steady.tallyWork (o : TallyOrder) (s : State) : Steady s (tallyWork o s) := by
  have metered : Steady s (tallyMeters s.drain (drainOut s)) := .same
  have charged : ∀ u, Steady u (chargeTally s.drain u) := fun u => .charge _ u
  obtain ⟨gearFirst, reportFirst⟩ := o
  cases gearFirst <;> cases reportFirst
  · exact ((metered.trans (charged _)).trans (.trackGear _)).trans (.streamTally _)
  · exact ((metered.trans (.streamTally _)).trans (charged _)).trans (.trackGear _)
  · exact ((metered.trans (.trackGear _)).trans (charged _)).trans (.streamTally _)
  · exact ((metered.trans (.streamTally _)).trans (.trackGear _)).trans (charged _)

theorem Steady.takeTally (o : TallyOrder) (s : State) : Steady s (takeTally o s) := by
  unfold Machine.takeTally
  split
  · exact Steady.trans (t := { s with clock.tallyDue := false }) .same (.tallyWork _ _)
  · exact .refl s

theorem Steady.goStale (s : State) : Steady s (goStale s) := by
  unfold Machine.goStale
  split
  · exact Steady.trans (t := { s with duty.fresh := false, duty.freshTimer := 0 }) .same (.raise _ _ _)
  · exact .refl s

theorem Steady.takeFreshnessExpiry (s : State) : Steady s (takeFreshnessExpiry s) := by
  unfold Machine.takeFreshnessExpiry
  split
  · exact .goStale s
  · exact .refl s

/-! ## Commits, sleep and the line -/

theorem Link.mapAfter_entries (f : AfterReply → AfterReply) (l : Link) : (l.mapAfter f).entries = l.entries := by
  obtain ⟨_, _, _, _, _, _, _, _, _, _, tx⟩ := l
  unfold Link.entries Link.mapAfter
  rcases tx with _ | ⟨source, frame⟩
  · simp
  · cases source <;> simp

theorem Steady.cancelSleep (s : State) : Steady s (cancelSleep s) := by
  refine .same (entries := ?_)
  unfold Machine.cancelSleep
  split
  · unfold Machine.reloadDoze
    split <;> exact Link.mapAfter_entries ..
  · rfl

theorem Steady.reloadDoze (s : State) : Steady s (reloadDoze s) := .same

theorem Steady.sleepTest (s : State) : Steady s (sleepTest s) := by
  unfold Machine.sleepTest
  split
  · split
    · split
      · split
        · exact .same
        · exact .refl s
      · exact .cancelSleep s
    · exact .refl s
  · exact .refl s

theorem releaseReplies_entries (ok : Bool) (w : Option (Nat × Area)) (s : State) :
    (releaseReplies ok w s).link.entries = s.link.entries := by
  have h := s.link.deferred.length_eq_length_filter_add fun d => decide (d.bound = .current)
  simp only [Link.entries, releaseReplies, List.length_append, List.length_map, ne_eq, decide_not] at h ⊢
  omega

theorem snapshot_fits (s : State) (n : Nat) (h : s.Fits) : imageFits (s.snapshot n) = true := by
  obtain ⟨hh, hl⟩ := h
  simp [imageFits, State.snapshot, ImageFields.sealed, State.retained, hh, hl]

theorem Steady.beginCommit (s : State) : Steady s (beginCommit s) := by
  unfold Machine.beginCommit
  dsimp only
  split
  · refine { Steady.refl s with images := fun i hi => ?_ }
    simp only [imagesOf, flightImages, List.mem_append, List.mem_singleton] at hi
    rcases hi with hi | rfl
    · exact .inl (by simp only [imagesOf, List.mem_append]; exact .inl hi)
    · exact .inr ⟨rfl, snapshot_fits s _⟩
  · refine Steady.trans ?_ (.sleepTest _)
    refine { (.same (entries := releaseReplies_entries ..) : Steady { s with store.commit := .idle } _) with
      images := fun i hi => ?_ }
    simp only [imagesOf, completionReaches_frame, flightImages, List.append_nil] at hi
    exact .inl (by simp only [imagesOf, List.mem_append]; exact .inl hi)

theorem Steady.askCommit (s : State) : Steady s (askCommit s) := by
  unfold Machine.askCommit
  split
  · exact .beginCommit s
  · rename_i f hf
    refine { Steady.refl s with images := fun i hi => .inl ?_ }
    simpa [imagesOf, flightImages, hf] using hi
  · exact .refl s

theorem Steady.takeDozeExpiry (s : State) : Steady s (takeDozeExpiry s) := by
  unfold Machine.takeDozeExpiry
  dsimp only
  split
  · split
    · split
      · exact Steady.trans (t := { s with
          clock.dozeDue := false, clock.sleep := some ⟨.dozeExpiry, .commit s.boundNow, true, true⟩ }) .same
          (.askCommit _)
      · exact .same
    · exact Steady.trans (t := { s with clock.dozeDue := false }) .same (.reloadDoze _)
  · exact .refl s

theorem Steady.takeCheckpointTest (s : State) : Steady s (takeCheckpointTest s) := by
  unfold Machine.takeCheckpointTest
  dsimp only
  split
  · split
    · exact Steady.trans (t := { s with clock.secondStep := false }) .same (.askCommit _)
    · exact .same
  · exact .refl s

theorem pickFrame_steady (n : Nat) (l : Link) (free : l.tx = none) :
    l.flags.Grows (pickFrame n l).flags ∧ (pickFrame n l).entries = l.entries ∧
      (pickFrame n l).baudselHigh = l.baudselHigh ∧ (pickFrame n l).queue = l.queue := by
  unfold pickFrame
  split
  · rename_i r hr
    have hm := (firstReply_some hr).1
    have hp := List.length_pos_of_mem hm
    refine ⟨.refl _, ?_, rfl, rfl⟩
    simp only [Link.entries, free, List.length_erase_of_mem hm]
    omega
  · split
    · rename_i f r _
      refine ⟨fun g => ?_, by simp [Link.entries, free], rfl, rfl⟩
      simp only [FlagTable.dropNotice, FlagTable.get_set]
      split
      · subst g; exact ⟨rfl, fun _ => rfl⟩
      · exact ⟨rfl, fun _ => rfl⟩
    · split
      · exact ⟨.refl _, by simp [Link.entries, free], rfl, rfl⟩
      · exact ⟨.refl _, rfl, rfl, rfl⟩

theorem Steady.arbitrate (s : State) : Steady s (arbitrate s) := by
  unfold Machine.arbitrate
  split
  · rename_i h
    obtain ⟨hf, he, hb, hq⟩ := pickFrame_steady s.hires.secured s.link (by simp_all)
    exact { Steady.refl s with flags := hf, entries := he.le, baudselHigh := hb, queue := hq }
  · exact .refl s

/-! ## Lines -/

theorem Steady.withHistory {s : State} (h : List Summary) (fits : s.hires.history.length ≤ historyMax → h.length ≤ historyMax) :
    Steady s { s with hires.history := h } :=
  { Steady.refl s with fits := fun k => ⟨fits k.1, k.2⟩ }

theorem Steady.appendSummary (m : Summary) (s : State) : Steady s (appendSummary m s) := by
  have grown : ∀ h, h = appended s.hires.history m → Steady s { s with hires.history := h } := fun h e =>
    .withHistory h fun k => e ▸ appended_length_le k m
  unfold appended at grown
  unfold Machine.appendSummary
  split
  · rename_i room
    have g := grown _ (if_pos room).symm
    dsimp only
    split
    · exact g.trans (.raise _ _ _)
    · exact g
  · rename_i room
    rw [if_neg room] at grown
    split
    · rename_i merge
      exact (grown _ (by rw [merge])).trans (.raise _ _ _)
    · rename_i merge
      exact grown _ (by rw [merge])

theorem Steady.closeOpenHire (c : CloseCause) (s : State) : Steady s (closeOpenHire c s) := by
  unfold Machine.closeOpenHire
  split
  · exact .refl s
  · rename_i h _
    exact (Steady.appendSummary (summaryOf h c s.clock.time) s).trans .same

theorem Steady.autoClose (s : State) : Steady s (autoClose s) := by
  unfold Machine.autoClose
  split
  · exact .refl s
  · split
    · exact ((Steady.closeOpenHire _ s).trans (.raise _ _ _)).trans (.askCommit _)
    · exact .refl s

theorem Steady.powerIgnition (b : Bool) (s : State) : Steady s (powerIgnition b s) := by
  unfold Machine.powerIgnition
  dsimp only
  split <;> exact (Steady.cancelSleep s).trans .same

theorem Steady.ignitionChanged (b f : Bool) (s : State) : Steady s (ignitionChanged b f s) := by
  have power := Steady.powerIgnition b s
  unfold Machine.ignitionChanged Machine.ignitionOff
  split
  · subst b
    exact (power.trans (.engineIgnition true _)).trans .same
  · simp only [Bool.not_eq_true] at *
    subst b
    split
    · exact (power.trans (.autoClose _)).trans (.engineIgnition _ _)
    · exact (power.trans (.engineIgnition _ _)).trans (.autoClose _)

theorem Steady.levelReaches (l : SwitchLine) (b f : Bool) (s : State) : Steady s (levelReaches l b f s) := by
  cases l
  · exact .ignitionChanged _ _ _
  · exact ((Steady.cancelSleep s).trans (.reloadDoze _)).trans (.engineCrank _ _)
  · exact .clutchPedal _ _
  · exact .refl s

theorem Steady.takeLevelChange (l : SwitchLine) (b : Bool) (s : State) : Steady s (takeLevelChange l b s) := by
  unfold Machine.takeLevelChange
  dsimp only
  split
  · exact Steady.trans
      (t := { s with
        inputs := s.inputs.setLine l
          { s.inputs.line l with level := !(s.inputs.line l).level, count := 0, changeDue := false } })
      .same (.levelReaches ..)
  · exact .refl s

/-! ## Time -/

/-- The events that may fall due, and the passing of time, are steady. -/
theorem eventLaw_steady (s : State) : EventLaw (Steady s) where
  arbitrate h := h.trans (.arbitrate _)
  levelChange l b _ h := h.trans (.takeLevelChange l b _)
  confirm h := h.trans (.takeConfirmExpiry _)
  lock h := h.trans (.takeLockExpiry _)
  freshness h := h.trans (.takeFreshnessExpiry _)
  doze h := h.trans (.takeDozeExpiry _)
  lampCheck h := h.trans .same
  lampBoundary m _ h := h.trans .same
  tally o _ h := h.trans (.takeTally o _)
  checkpoint h := h.trans (.takeCheckpointTest _)
  stall sh b _ h := h.trans (.takeStall sh b _)
  pass us _ h := h.trans .same

theorem Steady.passTime (us : Nat) (s : State) : Steady s (passTime us s) := (eventLaw_steady s).passTime us (.refl s)

theorem Steady.dozeEdge (s : State) : Steady s (dozeEdge s) := by
  unfold Machine.dozeEdge
  split
  · split
    · exact .cancelSleep s
    · exact .reloadDoze s
  · exact .reloadDoze s

theorem Steady.countEdge (sh : Shaft) (s : State) : Steady s (countEdge sh s) := by
  cases sh
  · exact .refl s
  · exact .refl s
  · exact Steady.trans (t := { s with inputs := countRevolution s.inputs s.config.armed.chOut.ep }) .same (.refl _)

theorem Steady.takeEdge (sh : Shaft) (b : Bool) (s : State) : Steady s (takeEdge sh b s) := by
  unfold Machine.takeEdge
  split
  · split
    · unfold acceptAwake
      have counted := (Steady.putChannel sh
        ((s.inputs.channel sh).edge (s.config.armed.channel sh) s.inputs.captureUs) b s).trans (.countEdge sh _)
      cases sh
      · exact counted
      · exact counted
      · exact counted.trans (.dozeEdge _)
    · unfold acceptAsleep
      dsimp only
      have counted := Steady.trans (s := s) (t := { s with inputs.out.lastEdge := some s.inputs.captureUs }) .same
        (.countEdge .out _)
      split
      · exact counted.trans .same
      · exact counted
  · exact .refl s

theorem Steady.edgeAt (sh : Shaft) (t : Transition) (us : Nat) (b : Bool) (s : State) : Steady s (edgeAt sh t us b s) :=
  (eventLaw_steady s).edgeAt sh t us b (fun _ h => h.trans (.takeEdge sh b _)) (.refl s)

theorem Steady.testSupply (v : Nat) (s : State) : Steady s (testSupply v s) := by
  unfold Machine.testSupply
  split
  · split
    · exact (Steady.trans (t := { s with inputs.supply := .warning }) .same (.raise _ _ _)).trans (.askCommit _)
    · exact .refl s
  · split
    · exact .same
    · exact .refl s

theorem Steady.stepDoze (s : State) : Steady s (stepDoze s) := by
  unfold Machine.stepDoze
  split
  · split
    · exact .refl s
    · exact .same
  · exact .refl s

theorem Steady.takeSample (v : Nat) (s : State) : Steady s (takeSample v s) := by
  unfold Machine.takeSample
  split
  · exact Steady.trans
      (t := { s with
        inputs.vbat := vbatSample v, starts.attempt := s.starts.attempt.map (Attempt.sample (vbatSample v)) })
      .same (.testSupply _ _)
  · exact .refl s

theorem Steady.tickStep (v : Nat) (s : State) : Steady s (tickStep v s) := by
  have timers : Steady s (stepTimers (stepMeterTime (instantOver { s with inputs.tickUs := 0 }))) :=
    .same rfl rfl rfl rfl rfl rfl rfl rfl rfl rfl rfl rfl rfl rfl rfl rfl rfl rfl rfl rfl
  exact (timers.trans (.stepDoze _)).trans (.takeSample _ _)

/-! ## Power -/

theorem Steady.holdAndCommit (s : State) : Steady s (holdAndCommit s) :=
  Steady.trans (t := { s with clock.hold := true }) .same (.askCommit _)

theorem Steady.endSettle (s : State) : Steady s (endSettle s) := by
  have power : ∀ u, Steady u (decidePower u) := fun u => by
    unfold decidePower
    split <;> exact .same
  have lines : Steady s (settleLines s) := .same rfl rfl rfl rfl rfl rfl rfl rfl rfl rfl rfl rfl rfl rfl rfl rfl rfl rfl rfl rfl
  have shown : Steady s (formLampsAfresh (decidePower (decideClutch (decideEngine (settleLines s))))) :=
    (lines.trans (Steady.trans (t := decideClutch (decideEngine (settleLines s))) .same (power _))).trans .same
  exact (shown.trans (.raise _ _ _)).trans (.holdAndCommit _)

theorem Steady.wake (s : State) : Steady s (wake s) := by
  have up : Steady s (formLampsAfresh (loadDoze { s with clock.power := .doze, clock.waking := false })) := .same
  unfold Machine.wake
  dsimp only
  split
  · exact up.trans (.holdAndCommit _)
  · exact up

theorem Steady.takeWakeSource (x : WakeSource) (s : State) : Steady s (takeWakeSource x s) := by
  have seen : ∀ l high, Steady s (watchPin l high s) := fun l high => .same
  cases x with
  | ignPin high => exact seen .ign high
  | crkPin high => exact seen .crk high
  | rxStartEdge => exact Steady.trans (t := { s with clock.waking := true }) .same (.refl _)

end Sys2Proof.Machine
end

section
/-! From events and changes to commands: a law that steady events keep, and that the few other things a command does
keep, is kept by every command. -/

namespace Sys2Proof.Machine

set_option Elab.async false

open Sys2Proof Sys2Proof.Safety

/-! ## The completion of a commit -/

/-- What the completion of a commit leaves as it is when it reaches the blocks that wait for it, before anything that
follows from it. -/
structure Completed (s u : State) : Prop where
  config : u.config = s.config
  pending : u.pending = s.pending
  queue : u.link.queue = s.link.queue
  flags : s.link.flags.Grows u.link.flags
  entries : u.link.entries = s.link.entries
  fits : s.Fits → u.Fits
  images : ∀ i ∈ imagesOf u, i ∈ imagesOf s

theorem imagesOf_flight {s : State} {f : Flight} (h : s.store.commit = .inFlight f ∨ s.store.commit = .inFlightPending f) :
    f.image ∈ imagesOf s := by
  rcases h with h | h <;> simp [imagesOf, flightImages, h]

/-- The areas after the contents of one have changed, with no commit in flight: every image was there before. -/
theorem imagesOf_set {s u : State} {a : Area} {c : AreaContents} (areas : u.store.areas = s.store.areas.set a c)
    (idle : u.store.commit = .idle) (new : ∀ i, c = .image i → i ∈ imagesOf s) : ∀ i ∈ imagesOf u, i ∈ imagesOf s := by
  intro i hi
  simp only [imagesOf, areas, idle, flightImages, List.append_nil, List.mem_map] at hi
  obtain ⟨p, hp, rfl⟩ := hi
  rcases validImages_set hp with hp | hp
  · simp only [imagesOf, List.mem_append, List.mem_map]
    exact .inl ⟨p, hp, rfl⟩
  · exact new _ hp

/-- With the areas as they were and no commit in flight, every image was there before. -/
theorem imagesOf_same {s u : State} (areas : u.store.areas = s.store.areas) (idle : u.store.commit = .idle) :
    ∀ i ∈ imagesOf u, i ∈ imagesOf s := by
  intro i hi
  simp only [imagesOf, areas, idle, flightImages, List.append_nil] at hi
  exact List.mem_append_left _ hi

theorem commitFailed_grows (f : Flight) (left : FailedArea) (s : State) :
    s.link.flags.Grows (commitFailed f left s).link.flags :=
  raise_grows .retentionFault (.index f.area.val) { s with
    store.usable := s.store.usable.set f.area false, store.faultSeen := true,
    store.areas := match left with
      | .noValidImage => s.store.areas.set f.area .unreadable
      | .imageBefore => s.store.areas }

theorem completionReaches_entries (ok : Bool) (w : Option (Nat × Area)) (n : Option Nat) (h : Bool) (s : State) :
    (completionReaches ok w n h s).link.entries = s.link.entries := releaseReplies_entries ok w s

theorem completionReaches_flags (ok : Bool) (w : Option (Nat × Area)) (n : Option Nat) (h : Bool) (s : State) :
    (completionReaches ok w n h s).link.flags = s.link.flags := rfl

theorem commitFailed_entries (f : Flight) (left : FailedArea) (s : State) :
    (commitFailed f left s).link.entries = s.link.entries := by simp [Link.entries]

/-- A completion reaches the waiting blocks, and then steady events follow: the next commit, the test of a sleep
pending. -/
theorem completeCommit_reached {s : State} {f : Flight} (wasPending : Bool) (r : CommitResult)
    (h : s.store.commit = .inFlight f ∨ s.store.commit = .inFlightPending f) :
    ∃ u, Completed s u ∧ Steady u (completeCommit f wasPending r s) := by
  have follows : ∀ (u : State) (again : Bool), Steady u (sleepTest (if again then beginCommit (bindNext u) else u)) := by
    intro u again
    refine Steady.trans ?_ (.sleepTest _)
    split
    · exact Steady.trans (t := bindNext u) (.same (entries := by simp [Link.entries, bindNext])) (.beginCommit _)
    · exact .refl u
  cases r with
  | verified =>
    unfold completeCommit
    refine ⟨_, ?_, follows _ _⟩
    exact
      { config := by simp, pending := by simp, queue := by simp
        flags := by rw [completionReaches_flags]; exact .refl _
        entries := by rw [completionReaches_entries]
        fits := by simp [State.Fits]
        images := imagesOf_set (a := f.area) (c := .image f.image) (by simp) (by simp)
          (fun i hi => by cases hi; exact imagesOf_flight h) }
  | failed left =>
    unfold completeCommit
    refine ⟨_, ?_, follows _ _⟩
    exact
      { config := by simp, pending := by simp, queue := by simp
        flags := by rw [completionReaches_flags]; exact commitFailed_grows f left s
        entries := by rw [completionReaches_entries]; exact commitFailed_entries f left s
        fits := by simp [State.Fits]
        images := by
          cases left
          · exact imagesOf_set (a := f.area) (c := .unreadable) (by simp [commitFailed, raise]) (by simp)
              (fun i hi => by cases hi)
          · exact imagesOf_same (by simp [commitFailed, raise]) (by simp) }

/-! ## Requests -/

/-- What the change of a request keeps, and what it takes from the state before it. -/
structure Tame (s u : State) : Prop where
  pending : u.pending = s.pending
  queue : u.link.queue = s.link.queue
  entries : u.link.entries ≤ s.link.entries
  fits : s.Fits → u.Fits
  images : ∀ i ∈ imagesOf u, i ∈ imagesOf s ∨ (i.armed = u.config.armed ∧ (s.Fits → imageFits i = true))

theorem Steady.tame {s t : State} (h : Steady s t) : Tame s t :=
  ⟨h.pending, h.queue, h.entries, h.fits, h.config ▸ h.images⟩

theorem Tame.trans {s t u : State} (h : Tame s t) (k : Steady t u) : Tame s u where
  pending := k.pending.trans h.pending
  queue := k.queue.trans h.queue
  entries := k.entries.trans h.entries
  fits := k.fits ∘ h.fits
  images := by
    intro i hi
    rw [k.config]
    rcases k.images i hi with hi | ⟨h1, h2⟩
    · exact h.images i hi
    · exact .inr ⟨h1, h2 ∘ h.fits⟩

theorem Tame.same {s u : State} (history : u.hires.history.length ≤ s.hires.history.length := by simp)
    (log : u.starts.log = s.starts.log := by simp) (pending : u.pending = s.pending := by simp)
    (queue : u.link.queue = s.link.queue := by simp)
    (entries : u.link.entries = s.link.entries := by simp [Link.entries])
    (areas : u.store.areas = s.store.areas := by simp)
    (commit : u.store.commit = s.store.commit := by simp) : Tame s u :=
  ⟨pending, queue, entries.le, fun h => ⟨history.trans h.1, log ▸ h.2⟩, fun i hi => .inl (by
    rw [imagesOf, areas, commit] at hi; exact hi)⟩

theorem Tame.refl (s : State) : Tame s s := .same

theorem Tame.declare (l : LoadState) (c : Option Int) (s : State) : Tame s (declare l c s) := by
  unfold Machine.declare
  split
  · exact .same le_rfl rfl rfl rfl rfl rfl rfl
  · exact Tame.trans (t := { s with duty.load := l }) .same (Steady.goStale _)

theorem Tame.changeSlot (k : Slot) (g : SlotMeters → SlotMeters) (s : State) : Tame s (changeSlot k g s) := by
  unfold Machine.changeSlot
  exact .same

theorem releaseThrough_history_length (n : Nat) (h : Hires) :
    (releaseThrough n h).history.length ≤ h.history.length := by
  unfold releaseThrough
  dsimp only
  split
  · rfl
  · simp

theorem Tame.openNewHire (key : Nat) (s : State) : Tame s (openNewHire key s) := by
  unfold Machine.openNewHire
  have closed := (Steady.closeOpenHire .superseded s).tame
  exact { closed with }

theorem Tame.clearAccounts (s : State) : Tame s (clearAccounts s) := by
  unfold Machine.clearAccounts
  exact
    { (.same : Tame s { s with table.slots := Eight.all blankSlot, duty.meters := zeroMeters }) with
      fits := fun _ => by simp [State.Fits, clearHires]
      pending := by simp, queue := by simp
      entries := by simp
      images := fun i hi => .inl (by simpa [imagesOf] using hi) }

theorem Tame.pendSleep (s : State) : Tame s (pendSleep s) :=
  .same le_rfl rfl rfl rfl (Link.mapAfter_entries ..) rfl rfl

/-- The new set in its place at a swap, before the stalls and expiries that it brings. -/
def swapIn (new : Settings) (s : State) : State :=
  { s with
    config.armed := new, config.staging := none, config.generation := nextGeneration s.config.generation,
    inputs := rearmOut s.config.armed.chOut new.chOut s.inputs,
    table.slots := Eight.zip remark new.slots s.table.slots }

theorem Steady.restall (sh : Shaft) (old : Settings) (b : Bool) (s : State) : Steady s (restall sh old b s) := by
  unfold Machine.restall
  split
  · exact .refl s
  · exact .takeStall _ _ _

theorem Steady.restallAll (old : Settings) (s : State) : Steady s (restallAll old s) := by
  unfold Machine.restallAll
  dsimp only
  have counted := Steady.trans (s := s) (t := { s with freePicks := s.freePicks + 1 }) .same
    (.restall .out old ((Config.freePick s.freePicks).testBit 0) _)
  split
  · exact (counted.trans (.restall _ _ _ _)).trans (.restall _ _ _ _)
  · exact (counted.trans (.restall _ _ _ _)).trans (.restall _ _ _ _)

theorem Steady.rearmTimers (old : Settings) (s : State) : Steady s (rearmTimers old s) := by
  unfold Machine.rearmTimers
  dsimp only
  have confirmed : Steady s (if old.engine = s.config.armed.engine then s else Machine.takeConfirmExpiry s) := by
    split
    · exact .refl s
    · exact .takeConfirmExpiry s
  split
  · exact confirmed
  · exact confirmed.trans (.takeLockExpiry _)

theorem Steady.rearmLamps (old : Settings) (s : State) : Steady s (rearmLamps old s) := by
  unfold Machine.rearmLamps
  split
  · exact .same
  · exact .refl s

/-- A swap is the new set in its place and then steady events. -/
theorem swap_steady (new : Settings) (s : State) : Steady (swapIn new s) (swap new s) :=
  (((Steady.raiseMarks _ _).trans (.rearmLamps _ _)).trans (.restallAll _ _)).trans (.rearmTimers _ _)

theorem Tame.swap (new : Settings) (s : State) : Tame s (swap new s) :=
  Tame.trans (t := swapIn new s) (.same le_rfl rfl rfl rfl rfl rfl rfl) (swap_steady new s)

theorem Change.tame {c : Instr} {f : Frame} {s u : State} (h : Change c f s u) : Tame s u := by
  cases h with
  | none => exact .refl s
  | opened => exact .openNewHire _ s
  | closed => exact (Steady.closeOpenHire _ s).tame
  | suspended => exact .same le_rfl rfl rfl rfl rfl rfl rfl
  | resumed => exact .same le_rfl rfl rfl rfl rfl rfl rfl
  | released => exact .same (history := releaseThrough_history_length ..)
  | pooled => exact .same (history := le_rfl)
  | declared => exact .declare _ _ s
  | serviced => exact .changeSlot _ _ s
  | installed => exact .changeSlot _ _ s
  | setup => exact .same
  | item => exact .same
  | unchanged => exact .same
  | swapped => exact .swap _ s
  | abandoned => exact .same
  | defaults => exact .same
  | cleared => exact .clearAccounts s
  | slept => exact .pendSleep s
  | restarted => exact .same
  | masked => exact .same
  | flagsCleared => exact .same
  | streamStopped => exact .same
  | streamStarted => exact .same

/-- How a request's work ends, from the state its change leaves: at most one entry of the reply buffer more, with nothing
but the link touched, and then steady events (the commit a deferred reply asks for). -/
theorem Ends.steady {f : Frame} {u t : State} (h : Ends f u t) :
    ∃ l : Link, Steady { u with link := l } t ∧ l.queue = u.link.queue ∧ l.flags = u.link.flags ∧
      l.baudselHigh = u.link.baudselHigh ∧ l.entries ≤ u.link.entries + 1 := by
  cases h with
  | answered code fields =>
    exact ⟨_, .refl _, rfl, rfl, rfl, by simp [Link.entries]; omega⟩
  | deferred form after =>
    exact ⟨_, .askCommit _, rfl, rfl, rfl, by simp [Link.entries]; omega⟩
  | dropped => exact ⟨u.link, .refl _, rfl, rfl, rfl, by omega⟩

end Sys2Proof.Machine
end

section
/-! Laws that steady events keep: every command completes, the capacities. -/

namespace Sys2Proof.Machine

set_option Elab.async false

open Sys2Proof Sys2Proof.Safety

theorem Steady.sampleAwake (l : SwitchLine) (b : Bool) (s : State) : Steady s (sampleAwake l b s) := by
  have changed := Steady.takeLevelChange l false s
  unfold Machine.sampleAwake
  exact changed.trans (.same (s := Machine.takeLevelChange l false s))

theorem Steady.sampleSettling (l : SwitchLine) (b : Bool) (s : State) : Steady s (sampleSettling l b s) := by
  unfold Machine.sampleSettling
  exact .same

/-- A law that steady events keep, and that the other things a command does keep. -/
structure SteadyLaw (P : State → Prop) : Prop where
  steady : ∀ {s t}, Steady s t → P s → P t
  clock : ∀ c {s}, P s → P { s with clock := c }
  stop : ∀ p {s}, P s → P (stopped p s)
  restore : ∀ b {s}, P s → P (endRestore b s)
  completed : ∀ {s u}, Completed s u → P s → P u
  received : ∀ rx q {s}, q.length ≤ 4 ∨ q = s.link.queue → P s → P { s with link.rx := rx, link.queue := q }
  lineFree : ∀ {s}, P s → P { s with link.tx := none }
  taken : ∀ {s f rest}, s.link.queue = f :: rest → P s → P { s with link.queue := rest }
  request : ∀ {c f s t}, s.link.entries < 4 → Work c f s t → P s → P t

namespace SteadyLaw

variable {P : State → Prop}

theorem enterFrame (L : SteadyLaw P) (f : Frame) {s : State} (h : P s) : P (enterFrame f s) := by
  unfold Machine.enterFrame
  split
  · rename_i room
    have entered := L.received s.link.rx (s.link.queue ++ [f]) (.inl (by simp; omega)) h
    exact L.steady ((Steady.cancelSleep _).trans (.reloadDoze _)) entered
  · exact L.steady (.raise _ _ _) h

theorem receive (L : SteadyLaw P) (items : List RxItem) {s : State} (h : P s) : P (receive items s) := by
  unfold Machine.receive
  split
  · have all : ∀ (fs : List Frame) (t : State), P t → P (fs.foldl (fun t f => Machine.enterFrame f t) t) := by
      intro fs
      induction fs with
      | nil => exact fun t ht => ht
      | cons f fs ih => exact fun t ht => ih _ (L.enterFrame f ht)
    exact all _ _ (L.received _ s.link.queue (.inr rfl) h)
  · exact L.steady (.same) h

theorem frameSent (L : SteadyLaw P) (x : TxSource) {s : State} (h : P s) : P (frameSent x s) := by
  unfold Machine.frameSent
  split
  · exact L.stop _ h
  · exact L.steady
      (Steady.trans
        (t := { s with clock.sleep := s.clock.sleep.map fun p =>
          if p.stage = .reply then { p with stage := .ready } else p }) .same (.sleepTest _)) h
  all_goals exact h

theorem takeCompletion (L : SteadyLaw P) (r : CommitResult) {s : State} (h : P s) : P (takeCompletion r s) := by
  have ends : ∀ {f} (p : Bool), s.store.commit = .inFlight f ∨ s.store.commit = .inFlightPending f →
      P (completeCommit f p r s) := by
    intro f p hf
    obtain ⟨u, reached, follows⟩ := completeCommit_reached p r hf
    exact L.steady follows (L.completed reached h)
  unfold Machine.takeCompletion
  split
  · exact h
  · exact ends _ (.inl ‹_›)
  · exact ends _ (.inr ‹_›)

/-- A law that steady events keep is kept by every command. -/
theorem exec (L : SteadyLaw P) (c : Instr) {s : State} (h : P s) : After P (exec c s) := by
  have event : ∀ {due : Bool} {work : State → State}, Steady s (work s) → After P (whenDue due work s) :=
    fun hw => after_whenDue h fun _ => L.steady (.arbitrate _) (L.steady hw h)
  have worked : ∀ {due : Bool} {work : State → State}, P (work s) → After P (whenDue due work s) :=
    fun hw => after_whenDue h fun _ => L.steady (.arbitrate _) hw
  by_cases hc : takesFrame c = true
  · exact exec_takesFrame hc h fun f rest t hq _ he hw =>
      L.steady (.arbitrate _) (L.request (s := { s with link.queue := rest }) he hw (L.taken hq h))
  cases c with
  | powerOn =>
    show After P (execPowerOn s)
    unfold execPowerOn
    split
    · exact after_next h
    · exact after_next (L.stop _ (L.clock _ h))
  | powerLoss =>
    show After P (execPowerLoss s)
    unfold execPowerLoss
    split
    · exact after_next (L.stop _ (L.clock _ h))
    · exact after_next h
  | resetnLow =>
    show After P (execResetnLow s)
    unfold execResetnLow
    split
    · exact after_next (L.stop _ (L.clock _ h))
    · exact after_next (L.clock _ h)
  | resetnRise =>
    show After P (execResetnRise s)
    unfold execResetnRise
    split
    · exact after_next h
    · split
      · exact after_next (L.stop _ (L.clock _ h))
      · exact after_next (L.clock _ h)
  | restoreStepEnd b => exact worked (L.restore b h)
  | settleEnd => exact event (.endSettle s)
  | pulseEdge sh t us b => exact event (.edgeAt sh t us b s)
  | channelStall sh us b =>
    exact event (work := fun t => takeStall sh b (passTo us t)) ((Steady.passTime _ s).trans (.takeStall sh b _))
  | lineLevelChange l b => exact event (.takeLevelChange l b s)
  | wakeSource x => exact event (.takeWakeSource x s)
  | wakeComplete => exact event (.wake s)
  | meterTick v =>
    exact event (work := fun t => tickStep v (passTime (4000 - t.inputs.tickUs) t))
      ((Steady.passTime _ s).trans (.tickStep v _))
  | tally o => exact event (.takeTally o s)
  | checkpointDue => exact event (.takeCheckpointTest s)
  | confirmTimerExpiry => exact event (.takeConfirmExpiry s)
  | lockTimerExpiry => exact event (.takeLockExpiry s)
  | freshnessExpiry => exact event (.takeFreshnessExpiry s)
  | dozeTimerExpiry => exact event (.takeDozeExpiry s)
  | lampCheckExpiry => exact event .same
  | blinkPhaseBoundary m => exact event .same
  | commitComplete r => exact worked (L.takeCompletion r h)
  | frameReceived bs => exact worked (L.receive _ h)
  | interByteTimeout bs => exact worked (L.receive _ h)
  | frameDiscarded bs b => exact worked (L.receive _ h)
  | transmitComplete =>
    show After P (execTransmitComplete s)
    unfold execTransmitComplete
    split
    · exact after_next h
    · exact after_settled (L.steady (.arbitrate _) (L.frameSent _ (L.lineFree h)))
  | switchLineSample l b =>
    show After P (execSwitchLineSample l b s)
    unfold execSwitchLineSample
    split
    · exact after_settled (L.steady (.arbitrate _) (L.steady (.sampleAwake l b s) h))
    · exact event (.sampleSettling l b s)
  | _ => exact absurd rfl hc

end SteadyLaw

/-! ## Every command completes -/

theorem whenDue_next (due : Bool) (work : State → State) (s : State) : ∃ t, whenDue due work s = .next t := by
  unfold whenDue
  split <;> exact ⟨_, rfl⟩

theorem takeHead_next (mine : Byte → Bool) (work : Frame → State → State) (s : State) :
    ∃ t, takeHead mine work s = .next t := by
  unfold takeHead
  split
  · exact ⟨_, rfl⟩
  · split <;> exact ⟨_, rfl⟩

/-- Every command answers a next state. -/
theorem exec_next (c : Instr) (s : State) : ∃ t, exec c s = .next t := by
  by_cases hc : takesFrame c = true
  · obtain ⟨mine, work, h, _⟩ := exec_eq_takeHead hc s
    exact h ▸ takeHead_next mine work s
  cases c with
  | powerOn =>
    show ∃ t, execPowerOn s = .next t
    unfold execPowerOn
    split <;> exact ⟨_, rfl⟩
  | powerLoss =>
    show ∃ t, execPowerLoss s = .next t
    unfold execPowerLoss
    split <;> exact ⟨_, rfl⟩
  | resetnLow =>
    show ∃ t, execResetnLow s = .next t
    unfold execResetnLow
    split <;> exact ⟨_, rfl⟩
  | resetnRise =>
    show ∃ t, execResetnRise s = .next t
    unfold execResetnRise
    split
    · exact ⟨_, rfl⟩
    · split <;> exact ⟨_, rfl⟩
  | transmitComplete =>
    show ∃ t, execTransmitComplete s = .next t
    unfold execTransmitComplete
    split <;> exact ⟨_, rfl⟩
  | switchLineSample l b =>
    show ∃ t, execSwitchLineSample l b s = .next t
    unfold execSwitchLineSample
    split
    · exact ⟨_, rfl⟩
    · exact whenDue_next ..
  | channelStall sh us b => exact whenDue_next _ (fun t => takeStall sh b (passTo us t)) s
  | meterTick v => exact whenDue_next _ (fun t => tickStep v (passTime (4000 - t.inputs.tickUs) t)) s
  | restoreStepEnd | settleEnd | pulseEdge | lineLevelChange | wakeSource | wakeComplete | tally | checkpointDue
  | confirmTimerExpiry | lockTimerExpiry | freshnessExpiry | dozeTimerExpiry | lampCheckExpiry | blinkPhaseBoundary
  | commitComplete | frameReceived | interByteTimeout | frameDiscarded => exact whenDue_next ..
  | _ => exact absurd rfl hc

/-- The waiting commands stand whatever the command does. -/
theorem steadyLaw_pending (p : List Instr) : SteadyLaw (fun t => t.pending = p) where
  steady h k := h.pending.trans k
  clock _ _ h := h
  stop _ _ h := h
  restore b s h := by
    unfold endRestore
    dsimp only
    split <;> exact h
  completed h k := h.pending.trans k
  received _ _ _ _ h := h
  lineFree h := h
  taken _ h := h
  request _ hw h := by
    obtain ⟨u, change, ends⟩ := hw
    obtain ⟨l, follows, _⟩ := ends.steady
    exact follows.pending.trans (change.tame.pending.trans h)

/-- Settles O2: a command answers a next state, and whatever it does keeps the waiting commands. -/
theorem everyCommandCompletes : Obligations.EveryCommandCompletes := by
  intro c s
  obtain ⟨t, ht⟩ := exec_next c s
  exact ⟨t, ht, (steadyLaw_pending s.pending).exec c rfl t ht⟩

/-! ## Capacities -/

/-- The capacities as one fact on the lists, the queue, the reply buffer and the images. -/
theorem withinCapacity_iff (s : State) : withinCapacity s = true ↔
    s.Fits ∧ s.link.queue.length ≤ 4 ∧ s.link.entries ≤ 4 ∧ ∀ i ∈ imagesOf s, imageFits i = true := by
  simp only [withinCapacity, State.Fits, Bool.and_eq_true, decide_eq_true_eq, List.all_eq_true, and_assoc]

theorem imageFits_iff (i : Image) :
    imageFits i = true ↔ i.history.length ≤ historyMax ∧ i.startLog.length ≤ 32 := by
  simp [imageFits]

/-- The images of a part that has stopped were images before. -/
theorem imagesOf_stopped (p : Power) (s : State) : ∀ i ∈ imagesOf (stopped p s), i ∈ imagesOf s := by
  have idle : (stopped p s).store.commit = .idle := rfl
  have areas : (stopped p s).store.areas = s.store.areasAtStop := rfl
  unfold Store.areasAtStop at areas
  split at areas
  · exact imagesOf_same areas idle
  · exact imagesOf_set areas idle (fun i hi => by cases hi)
  · exact imagesOf_set areas idle (fun i hi => by cases hi)

/-- What the end of the restore step leaves: a blank start, or the fields of an image that an area held. -/
theorem endRestore_cases (b : Bool) (s : State) :
    endRestore b s = { stopped .settle s with link.baudselHigh := b } ∨
      ∃ a i, i ∈ imagesOf s ∧
        endRestore b s = { restoreImage a i (stopped .settle s) with link.baudselHigh := b } := by
  unfold endRestore
  dsimp only
  split
  · rename_i a i hi
    refine .inr ⟨a, i, ?_, rfl⟩
    simp only [imagesOf, List.mem_append, List.mem_map]
    exact .inl ⟨(a, i), newestImage_mem hi, rfl⟩
  · exact .inl rfl

theorem imagesOf_endRestore (b : Bool) (s : State) : ∀ i ∈ imagesOf (endRestore b s), i ∈ imagesOf s := by
  rcases endRestore_cases b s with h | ⟨a, i, _, h⟩ <;> rw [h]
  · exact imagesOf_stopped .settle s
  · intro j hj
    refine imagesOf_stopped .settle s j ?_
    simp only [imagesOf, restoreImage, flightImages, List.append_nil] at hj
    exact List.mem_append_left _ hj

theorem steadyLaw_withinCapacity : SteadyLaw (fun s => withinCapacity s = true) where
  steady {s t} h k := by
    rw [withinCapacity_iff] at k ⊢
    obtain ⟨fits, queue, entries, images⟩ := k
    refine ⟨h.fits fits, h.queue ▸ queue, h.entries.trans entries, fun i hi => ?_⟩
    rcases h.images i hi with hi | ⟨_, hf⟩
    · exact images i hi
    · exact hf fits
  clock _ _ h := h
  stop p s h := by
    rw [withinCapacity_iff] at h ⊢
    obtain ⟨_, _, _, images⟩ := h
    exact ⟨⟨Nat.zero_le _, Nat.zero_le _⟩, Nat.zero_le _, Nat.zero_le _, fun i hi => images i (imagesOf_stopped p s i hi)⟩
  restore b s h := by
    rw [withinCapacity_iff] at h ⊢
    obtain ⟨_, _, _, images⟩ := h
    have kept : ∀ i ∈ imagesOf (endRestore b s), imageFits i = true := fun i hi =>
      images i (imagesOf_endRestore b s i hi)
    rcases endRestore_cases b s with e | ⟨a, i, hi, e⟩ <;> rw [e] at kept ⊢
    · exact ⟨⟨Nat.zero_le _, Nat.zero_le _⟩, Nat.zero_le _, Nat.zero_le _, kept⟩
    · exact ⟨(imageFits_iff i).1 (images i hi), Nat.zero_le _, Nat.zero_le _, kept⟩
  completed h k := by
    rw [withinCapacity_iff] at k ⊢
    obtain ⟨fits, queue, entries, images⟩ := k
    exact ⟨h.fits fits, h.queue ▸ queue, h.entries.trans_le entries, fun i hi => images i (h.images i hi)⟩
  received rx q s hq h := by
    rw [withinCapacity_iff] at h ⊢
    obtain ⟨fits, queue, entries, images⟩ := h
    refine ⟨fits, ?_, entries, images⟩
    rcases hq with hq | rfl
    · exact hq
    · exact queue
  lineFree {s} h := by
    rw [withinCapacity_iff] at h ⊢
    obtain ⟨fits, queue, entries, images⟩ := h
    refine ⟨fits, queue, le_trans ?_ entries, images⟩
    simp [Link.entries]
  taken hq h := by
    rw [withinCapacity_iff] at h ⊢
    obtain ⟨fits, queue, entries, images⟩ := h
    refine ⟨fits, ?_, entries, images⟩
    rw [hq] at queue
    exact Nat.le_of_succ_le queue
  request {c f s t} free hw h := by
    rw [withinCapacity_iff] at h ⊢
    obtain ⟨fits, queue, _, images⟩ := h
    obtain ⟨u, change, ends⟩ := hw
    obtain ⟨l, follows, lq, _, _, le⟩ := ends.steady
    have tame := change.tame
    have ufits := tame.fits fits
    have uimages : ∀ i ∈ imagesOf u, imageFits i = true := fun i hi => by
      rcases tame.images i hi with hi | ⟨_, hf⟩
      · exact images i hi
      · exact hf fits
    refine ⟨follows.fits ufits, ?_, ?_, fun i hi => ?_⟩
    · rw [follows.queue]
      exact (congrArg List.length (lq.trans tame.queue)).trans_le queue
    · have := follows.entries
      have := tame.entries
      dsimp only at *
      omega
    · rcases follows.images i hi with hi | ⟨_, hf⟩
      · exact uimages i hi
      · exact hf ufits

/-- Settles O7, the capacities being a law that steady events keep and that no request oversteps. -/
theorem capacitiesAreKept : Obligations.CapacitiesAreKept := by
  intro s t h hs
  exact step_keeps (fun _ _ k => k) (fun c _ _ k => steadyLaw_withinCapacity.exec c k _) h hs

end Sys2Proof.Machine
end

section
/-! The configuration items (sections 8.3 and 11.7.5): codes read back as written, an item as a set holds it, its bytes,
its range, and its storage. -/

namespace Sys2Proof.Machine

set_option Elab.async false

open Sys2Proof Sys2Proof.Safety

/-! ## Codes -/

@[simp] theorem lawOfCode_code (l : Law) : lawOfCode l.code = some l := by cases l <;> rfl

@[simp] theorem edgeOfCode_code (e : ActiveEdge) : edgeOfCode e.code = some e := by cases e <;> rfl

@[simp] theorem polarityOfCode_code (p : Polarity) : polarityOfCode p.code = some p := by cases p <;> rfl

@[simp] theorem classOfCode_code (c : HireClass) : classOfCode c.code = some c := by cases c <;> rfl

@[simp] theorem boolOfCode_code (b : Bool) : boolOfCode (boolCode b) = some b := by cases b <;> rfl

theorem Law.code_lt (l : Law) : l.code < 256 := by cases l <;> decide

theorem ActiveEdge.code_lt (e : ActiveEdge) : e.code < 256 := by cases e <;> decide

theorem Polarity.code_lt (p : Polarity) : p.code < 256 := by cases p <;> decide

theorem HireClass.code_lt (c : HireClass) : c.code < 256 := by cases c <;> decide

theorem boolCode_le (b : Bool) : boolCode b ≤ 1 := by cases b <;> decide

theorem Conditions.code_lt (c : Conditions) : c.code < 16 := by
  have h1 := boolCode_le c.cold
  have h2 := boolCode_le c.hot
  have h3 := boolCode_le c.load
  have h4 := boolCode_le c.lowBattery
  unfold Conditions.code
  omega

@[simp] theorem conditionsOfCode_code (c : Conditions) : conditionsOfCode c.code = some c := by
  obtain ⟨cold, hot, load, low⟩ := c
  revert cold hot load low
  decide

theorem slotMapCode_lt (e : Eight Bool) : slotMapCode e < 256 := by
  have h0 := boolCode_le e.s0
  have h1 := boolCode_le e.s1
  have h2 := boolCode_le e.s2
  have h3 := boolCode_le e.s3
  have h4 := boolCode_le e.s4
  have h5 := boolCode_le e.s5
  have h6 := boolCode_le e.s6
  have h7 := boolCode_le e.s7
  unfold slotMapCode
  omega

@[simp] theorem slotMapOf_code (e : Eight Bool) : slotMapOf (slotMapCode e) = e := by
  obtain ⟨a, b, c, d, e, f, g, h⟩ := e
  revert a b c d e f g h
  decide

/-- The three closing bits of HIRE_POLICY. -/
theorem closes_testBit (a b c : Bool) :
    boolCode a + 2 * boolCode b + 4 * boolCode c < 8 ∧
      (boolCode a + 2 * boolCode b + 4 * boolCode c).testBit 0 = a ∧
      (boolCode a + 2 * boolCode b + 4 * boolCode c).testBit 1 = b ∧
      (boolCode a + 2 * boolCode b + 4 * boolCode c).testBit 2 = c := by
  revert a b c
  decide

@[simp] theorem optField_none : optField 0 0 = some none := rfl

@[simp] theorem optField_some (n : Nat) : optField 1 n = some (some n) := rfl

theorem signed16_unsigned16 {t : Int} (low : -40 ≤ t) (high : t ≤ 150) : signed16 (unsigned16 t) = t := by
  unfold signed16 unsigned16
  split <;> omega

/-! ## Ranges -/

theorem within_iff {lo hi n : Nat} : within lo hi n = true ↔ lo ≤ n ∧ n ≤ hi := by simp [within]

/-- A value in its range is stored as it is (R139). -/
theorem clamp_of_within {lo hi n : Nat} (h : within lo hi n = true) : clamp lo hi n = n := by
  obtain ⟨low, high⟩ := within_iff.1 h
  unfold clamp
  omega

theorem within_clamp {lo hi : Nat} (h : lo ≤ hi) (n : Nat) : within lo hi (clamp lo hi n) = true := by
  rw [within_iff]
  unfold clamp
  omega

/-- Every field of an item lies in the range that R141 gives it. -/
def itemInRange : ItemValue → Bool
  | .slot _ v => slotInRange v
  | .bands v => v.toList.all (within 0 12000)
  | .gears v => (v.toList.filterMap id).all gearInRange
  | .engine v => within 100 3000 v.runSpeed && within 50 2999 v.stallSpeed && within 100 5000 v.confirmMs
  | .clutch v => within 0 500 v.tolerance && within 50 2000 v.lockMs
  | .shift v => within 100 3000 v.confirmMs && within 1 500 v.oMinimum
  | .channel _ v => channelInRange v
  | .line _ v => within 0 255 v.debounceMs
  | .conditions v => conditionsInRange v
  | .lamp _ v => lampInRange v
  | .keyClass _ v => keyInRange v
  | .policy _ => true
  | .timing v => within 10 3600 v.checkpointS && within 10 65535 v.dozeS

/-- An item as a set holds it. -/
def itemValue (c : Settings) : ItemId → ItemValue
  | .slot k => .slot k (c.slots.get k)
  | .bands => .bands c.bands
  | .gears => .gears c.gears
  | .engine => .engine c.engine
  | .clutch => .clutch c.clutch
  | .shift => .shift c.shift
  | .channel ch => .channel ch (c.channel ch)
  | .line l => .line l (c.line l)
  | .conditions => .conditions c.conditions
  | .lamp m => .lamp m (c.lamp m)
  | .keyClass k => .keyClass k (c.keys.get k)
  | .policy => .policy c.policy
  | .timing => .timing c.timing

theorem itemInRange_itemValue {c : Settings} (h : inRange c = true) (i : ItemId) :
    itemInRange (itemValue c i) = true := by
  simp only [inRange, Bool.and_eq_true, Eight.all_toList slotInRange,
    Eight.all_toList keyInRange] at h
  cases i with
  | channel ch => cases ch <;> simp_all [itemInRange, itemValue, Settings.channel]
  | line l => cases l <;> simp_all [itemInRange, itemValue, Settings.line]
  | lamp m => cases m <;> simp_all [itemInRange, itemValue, Settings.lamp]
  | _ => simp_all [itemInRange, itemValue]

theorem Eight.all_set {α : Type} {e : Eight α} {p : α → Bool} {k : Fin 8} {a : α} (h : e.toList.all p = true)
    (ha : p a = true) : (e.set k a).toList.all p = true := by
  rw [Eight.all_toList] at h ⊢
  intro j
  rw [Eight.get_set]
  split
  · exact ha
  · exact h j

theorem inRange_storeItem {c : Settings} {v : ItemValue} (h : inRange c = true) (hv : itemInRange v = true) :
    inRange (storeItem c v) = true := by
  cases v with
  | slot k v =>
    simp only [inRange, storeItem, Bool.and_eq_true] at h ⊢
    have : (c.slots.set k v).toList.all slotInRange = true := Eight.all_set (by simp_all) hv
    simp_all
  | keyClass k v =>
    simp only [inRange, storeItem, Bool.and_eq_true] at h ⊢
    have : (c.keys.set k v).toList.all keyInRange = true := Eight.all_set (by simp_all) hv
    simp_all
  | channel ch v => cases ch <;> simp_all [inRange, storeItem, itemInRange]
  | line l v => cases l <;> simp_all [inRange, storeItem, itemInRange]
  | lamp m v => cases m <;> simp_all [inRange, storeItem, itemInRange]
  | _ => simp_all [inRange, storeItem, itemInRange]

/-! ## Storage -/

theorem Eight.set_get {α : Type} (e : Eight α) (k : Fin 8) : e.set k (e.get k) = e := by
  refine Eight.ext_get fun j => ?_
  rw [Eight.get_set]
  split
  · simp [*]
  · rfl

/-- A set in which an item is replaced by what the set holds is the same set. -/
theorem storeItem_itemValue (c : Settings) (i : ItemId) : storeItem c (itemValue c i) = c := by
  cases i with
  | slot k => simp [storeItem, itemValue, Eight.set_get]
  | keyClass k => simp [storeItem, itemValue, Eight.set_get]
  | channel ch => cases ch <;> rfl
  | line l => cases l <;> rfl
  | lamp m => cases m <;> rfl
  | _ => rfl

/-- An item stored reads back as it was stored. -/
theorem itemFields_storeItem (c d : Settings) (i : ItemId) : itemFields (storeItem d (itemValue c i)) i = itemFields c i := by
  cases i with
  | slot k => simp [storeItem, itemValue, itemFields]
  | keyClass k => simp [storeItem, itemValue, itemFields]
  | channel ch => cases ch <;> rfl
  | line l => cases l <;> rfl
  | lamp m => cases m <;> rfl
  | _ => rfl

/-! ## Bytes -/

/-- The widths of a field's values in a payload. -/
def Field.widths : Field → List Nat
  | .num w _ => [w]
  | .temp _ => [2]
  | .opt w _ => [1, w]
  | .time _ | .optTemp _ | .optTime _ | .hireNo _ => []

/-- The values of a field, as a payload carries them. -/
def Field.values : Field → List Nat
  | .num _ v => [v]
  | .temp t => [unsigned16 t]
  | .opt _ (some v) => [1, v]
  | .opt _ none => [0, 0]
  | .time _ | .optTemp _ | .optTime _ | .hireNo _ => []

/-- A field of the kinds that items have, whose value fits its width. -/
def Field.fitsWidth : Field → Prop
  | .num w v => v < 256 ^ w
  | .temp _ => True
  | .opt w v => v.getD 0 < 256 ^ w
  | .time _ | .optTemp _ | .optTime _ | .hireNo _ => False

theorem unsigned16_lt (t : Int) : unsigned16 t < 65536 := by
  unfold unsigned16
  omega

theorem Field.split_append {f : Field} (h : f.fitsWidth) (secured : Nat) (ws : List Nat) (back : List Byte) :
    splitFields (f.widths ++ ws) (f.encode secured ++ back) = (splitFields ws back).map (f.values ++ ·) := by
  cases f with
  | num w v => exact splitFields_bytesOf h
  | temp t => exact splitFields_bytesOf (unsigned16_lt t)
  | opt w v =>
    cases v with
    | none =>
      have zero : 0 < 256 ^ w := Nat.pow_pos (by decide)
      simp only [Field.widths, Field.encode, Field.values, List.cons_append, List.nil_append, List.append_assoc]
      rw [splitFields_bytesOf (by decide), splitFields_bytesOf zero]
      simp [Function.comp_def]
    | some v =>
      simp only [Field.widths, Field.encode, Field.values, List.cons_append, List.nil_append, List.append_assoc]
      rw [splitFields_bytesOf (by decide), splitFields_bytesOf (show v < 256 ^ w from h)]
      simp [Function.comp_def]
  | _ => exact h.elim

/-- The fields of a payload are read as the values that were written. -/
theorem splitFields_encodeFields {fs : List Field} (h : ∀ f ∈ fs, f.fitsWidth) (secured : Nat) :
    splitFields (fs.flatMap Field.widths) (encodeFields secured fs) = some (fs.flatMap Field.values) := by
  induction fs with
  | nil => rfl
  | cons f fs ih =>
    simp only [List.flatMap_cons, encodeFields] at ih ⊢
    rw [Field.split_append (h f List.mem_cons_self), ih fun g hg => h g (List.mem_cons_of_mem _ hg)]
    rfl

theorem itemFields_widths (c : Settings) (i : ItemId) : (itemFields c i).flatMap Field.widths = i.widths := by
  have gear : ∀ g : Option GearEntry, (gearEntryFields g).flatMap Field.widths = [1, 2, 2] := fun g => by cases g <;> rfl
  cases i with
  | gears => simp [itemFields, Six.toList, gear, ItemId.widths]
  | _ => rfl

/-- The values of an item in range fit their widths. -/
theorem itemFields_fit {c : Settings} {i : ItemId} (h : itemInRange (itemValue c i) = true) :
    ∀ f ∈ itemFields c i, f.fitsWidth := by
  cases i with
  | slot k =>
    have law := (c.slots.get k).law.code_lt
    have map := (c.slots.get k).map.code_lt
    simp [itemInRange, itemValue, slotInRange, within_iff, Eight.toList] at h
    simp [itemFields, nums8, Eight.toList, Field.fitsWidth]
    omega
  | bands =>
    simp [itemInRange, itemValue, within_iff, Eight.toList] at h
    simp [itemFields, nums8, Eight.toList, Field.fitsWidth]
    omega
  | gears =>
    have entry : ∀ g : Option GearEntry, (∀ e, g = some e → gearInRange e = true) →
        ∀ f ∈ gearEntryFields g, f.fitsWidth := by
      intro g hg
      cases g with
      | none => simp [gearEntryFields, Field.fitsWidth]
      | some e =>
        have he := hg e rfl
        simp [gearInRange, within_iff] at he
        simp [gearEntryFields, Field.fitsWidth]
        omega
    simp only [itemInRange, itemValue, List.all_eq_true, List.mem_filterMap, id] at h
    intro f hf
    simp only [itemFields, List.mem_flatMap] at hf
    obtain ⟨g, hg, hf⟩ := hf
    exact entry g (fun e he => h e ⟨g, hg, he⟩) f hf
  | engine | clutch | shift =>
    simp [itemInRange, itemValue, within_iff] at h
    simp [itemFields, Field.fitsWidth]
    omega
  | timing =>
    have wake := boolCode_le c.timing.wakeOnShaft
    simp [itemInRange, itemValue, within_iff] at h
    simp [itemFields, Field.fitsWidth]
    omega
  | channel ch =>
    have edge := (c.channel ch).edge.code_lt
    simp [itemInRange, itemValue, channelInRange, within_iff] at h
    simp [itemFields, Field.fitsWidth]
    omega
  | line l =>
    have polarity := (c.line l).polarity.code_lt
    simp [itemInRange, itemValue, within_iff] at h
    simp [itemFields, Field.fitsWidth]
    omega
  | conditions =>
    simp [itemInRange, itemValue, conditionsInRange, within_iff] at h
    simp [itemFields, Field.fitsWidth]
    omega
  | lamp m =>
    have polarity := (c.lamp m).polarity.code_lt
    have map := slotMapCode_lt (c.lamp m).map
    simp [itemInRange, itemValue, lampInRange, within_iff] at h
    cases m <;> simp [itemFields, Field.fitsWidth, Settings.lamp] at * <;> omega
  | keyClass k =>
    have enabled := boolCode_le (c.keys.get k).enabled
    have cls := (c.keys.get k).cls.code_lt
    simp [itemInRange, itemValue, keyInRange, within_iff] at h
    simp [itemFields, Field.fitsWidth]
    omega
  | policy =>
    obtain ⟨closes, _⟩ := closes_testBit c.policy.closeCustomer c.policy.closeStaff c.policy.closeWorkshop
    have forced : (c.policy.forced.map HireClass.code).getD 0 < 256 := by
      cases c.policy.forced with
      | none => decide
      | some x => exact x.code_lt
    simp [itemFields, Field.fitsWidth]
    omega

/-- The values of an item in range, read back, are the item. -/
theorem itemOfFields_itemFields {c : Settings} {i : ItemId} (h : itemInRange (itemValue c i) = true) :
    itemOfFields i ((itemFields c i).flatMap Field.values) = some (itemValue c i) := by
  cases i with
  | slot k => simp [itemFields, nums8, Eight.toList, Field.values, itemOfFields, slotItem, itemValue]
  | bands =>
    simp only [itemInRange, itemValue, Eight.all_toList] at h
    have stored : Eight.map (clamp 0 12000) c.bands = c.bands :=
      Eight.ext_get fun k => by rw [Eight.get_map, clamp_of_within (h k)]
    exact congrArg (fun v => some (ItemValue.bands v)) stored
  | gears =>
    simp only [itemInRange, itemValue, List.all_eq_true, List.mem_filterMap, id] at h
    have entry : ∀ g ∈ c.gears.toList, ∃ p n t, (gearEntryFields g).flatMap Field.values = [p, n, t] ∧
        gearEntryOf p n t = some g := by
      intro g hg
      cases g with
      | none => exact ⟨0, 0, 0, rfl, rfl⟩
      | some e =>
        have he := h e ⟨some e, hg, rfl⟩
        simp only [gearInRange, Bool.and_eq_true] at he
        obtain ⟨nominal, tolerance⟩ := he
        exact ⟨1, e.nominal, e.tolerance, rfl, by
          simp only [gearEntryOf, clamp_of_within nominal, clamp_of_within tolerance]⟩
    simp only [Six.toList, List.forall_mem_cons, List.not_mem_nil, false_implies, implies_true, and_true] at entry
    obtain ⟨⟨p1, n1, t1, v1, e1⟩, ⟨p2, n2, t2, v2, e2⟩, ⟨p3, n3, t3, v3, e3⟩, ⟨p4, n4, t4, v4, e4⟩,
      ⟨p5, n5, t5, v5, e5⟩, ⟨p6, n6, t6, v6, e6⟩⟩ := entry
    simp [itemFields, Six.toList, v1, v2, v3, v4, v5, v6, itemOfFields, gearsItem, e1, e2, e3, e4, e5, e6, itemValue]
  | engine | clutch | shift =>
    simp only [itemInRange, itemValue, Bool.and_eq_true] at h
    simp [itemFields, Field.values, itemOfFields, itemValue, clamp_of_within, h]
  | timing =>
    simp only [itemInRange, itemValue, Bool.and_eq_true] at h
    simp [itemFields, Field.values, itemOfFields, itemValue, clamp_of_within, h]
  | channel ch =>
    simp only [itemInRange, itemValue, channelInRange, Bool.and_eq_true] at h
    simp [itemFields, Field.values, itemOfFields, itemValue, clamp_of_within, h]
  | line l =>
    simp only [itemInRange, itemValue] at h
    simp [itemFields, Field.values, itemOfFields, itemValue, clamp_of_within, h]
  | conditions =>
    simp only [itemInRange, itemValue, conditionsInRange, Bool.and_eq_true, decide_eq_true_eq] at h
    obtain ⟨⟨⟨⟨⟨⟨coldLow, coldHigh, hotLow, hotHigh⟩, low⟩, l1⟩, l2⟩, l3⟩, l4⟩ := h
    have temp : ∀ {t : Int}, -40 ≤ t → t ≤ 150 → clampInt (-40) 150 (signed16 (unsigned16 t)) = t := by
      intro t lo hi
      rw [signed16_unsigned16 lo hi]
      unfold clampInt
      omega
    simp [itemFields, Field.values, itemOfFields, conditionsItem, itemValue, temp coldLow coldHigh, temp hotLow hotHigh,
      clamp_of_within low, clamp_of_within l1, clamp_of_within l2, clamp_of_within l3, clamp_of_within l4]
  | lamp m =>
    simp only [itemInRange, itemValue, lampInRange, Bool.and_eq_true] at h
    cases m <;>
      simp_all [itemFields, Field.values, itemOfFields, itemValue, clamp_of_within, Settings.lamp]
  | keyClass k =>
    simp only [itemInRange, itemValue, keyInRange, Bool.and_eq_true] at h
    obtain ⟨⟨_, prefixLength⟩, _⟩ := h
    cases ha : (c.keys.get k).alternate <;>
      simp [itemFields, Field.values, itemOfFields, keyClassItem, itemValue, clamp_of_within prefixLength, ha] <;>
      simp [← ha]
  | policy =>
    obtain ⟨closes, customer, staff, workshop⟩ :=
      closes_testBit c.policy.closeCustomer c.policy.closeStaff c.policy.closeWorkshop
    cases hf : c.policy.forced <;>
      simp [itemFields, Field.values, itemOfFields, policyItem, itemValue, hf, closes, customer, staff, workshop] <;>
      simp [← hf]

theorem itemOfId_number (i : ItemId) : itemOfId i.number = some i := by
  cases i with
  | slot k => revert k; decide
  | keyClass k => revert k; decide
  | channel ch => cases ch <;> rfl
  | line l => cases l <;> rfl
  | lamp m => cases m <;> rfl
  | _ => rfl

theorem ItemId.number_lt (i : ItemId) : i.number < 256 := by
  cases i with
  | slot k => exact k.isLt.trans (by decide)
  | keyClass k => have := k.isLt; simp only [ItemId.number]; omega
  | channel ch => cases ch <;> decide
  | line l => cases l <;> decide
  | lamp m => cases m <;> decide
  | _ => decide

/-- The item that a set in range holds, from the payload that carries it. -/
theorem itemOfPayload_itemFields {c : Settings} (h : inRange c = true) (i : ItemId) (secured : Nat) :
    itemOfPayload (BitVec.ofNat 8 i.number :: encodeFields secured (itemFields c i)) = .ok (i, itemValue c i) := by
  have range := itemInRange_itemValue h i
  have number : (BitVec.ofNat 8 i.number).toNat = i.number := by
    simp only [BitVec.toNat_ofNat]
    exact Nat.mod_eq_of_lt i.number_lt
  have split := splitFields_encodeFields (itemFields_fit range) secured
  rw [itemFields_widths] at split
  simp only [itemOfPayload, number, itemOfId_number, split, itemOfFields_itemFields range]

/-- Settles O13: the bytes of an item in range are read back as the item. -/
theorem itemsReadBackAsStored : Obligations.ItemsReadBackAsStored := by
  intro i c d secured h
  have split := splitFields_encodeFields (itemFields_fit (itemInRange_itemValue h i)) secured
  rw [itemFields_widths] at split
  exact ⟨splitFields_eq_some_length split, itemValue c i, itemOfPayload_itemFields h i secured, storeItem_itemValue c i,
    itemFields_storeItem c d i⟩

end Sys2Proof.Machine
end

section
/-! Settings stay in range (R139, R141): what SET_ITEM stores lies in its range, and every set comes from SET_ITEM, the
factory or an image. -/

namespace Sys2Proof.Machine

set_option Elab.async false

open Sys2Proof Sys2Proof.Safety

theorem valueOf_lt (bs : List Byte) : valueOf bs < 256 ^ bs.length := by
  have fold : ∀ (bs : List Byte) (a : Nat),
      bs.foldl (fun n b => n * 256 + b.toNat) a < (a + 1) * 256 ^ bs.length := by
    intro bs
    induction bs with
    | nil => intro a; simp
    | cons b bs ih =>
      intro a
      have hb := b.isLt
      calc bs.foldl (fun n b => n * 256 + b.toNat) (a * 256 + b.toNat)
          < (a * 256 + b.toNat + 1) * 256 ^ bs.length := ih _
        _ ≤ ((a + 1) * 256) * 256 ^ bs.length := Nat.mul_le_mul_right _ (by omega)
        _ = (a + 1) * 256 ^ (b :: bs).length := by rw [List.length_cons, Nat.pow_succ']; ring
  simpa [valueOf] using fold bs 0

/-- The values of fields fit the fields' widths. -/
theorem splitFields_lt {ws vs : List Nat} {bs : List Byte} (h : splitFields ws bs = some vs) :
    List.Forall₂ (fun w v => v < 256 ^ w) ws vs := by
  induction ws generalizing bs vs with
  | nil =>
    cases bs with
    | nil => cases h; exact .nil
    | cons => cases h
  | cons w ws ih =>
    simp only [splitFields] at h
    split at h
    · cases h
    · rename_i long
      rw [Option.map_eq_some_iff] at h
      obtain ⟨rest, hr, rfl⟩ := h
      refine .cons ?_ (ih hr)
      have := valueOf_lt (bs.take w)
      rwa [List.length_take, Nat.min_eq_left (by omega)] at this

theorem gearEntryOf_inRange {p n t : Nat} {g : Option GearEntry} (h : gearEntryOf p n t = some g) :
    ∀ e, g = some e → gearInRange e = true := by
  rintro e rfl
  unfold gearEntryOf at h
  split at h
  · split at h <;> cases h
  · cases h
    simp [gearInRange, within_clamp]
  · cases h

theorem clampInt_range (n : Int) : -40 ≤ clampInt (-40) 150 n ∧ clampInt (-40) 150 n ≤ 150 := by
  unfold clampInt
  omega

/-- What the fields of an item, within their widths, are stored as lies in the item's range (R139). -/
theorem itemInRange_itemOfFields {i : ItemId} {vs : List Nat} {v : ItemValue}
    (fit : List.Forall₂ (fun w v => v < 256 ^ w) i.widths vs) (h : itemOfFields i vs = some v) : itemInRange v = true := by
  unfold itemOfFields at h
  split at h
  next k =>
    unfold slotItem at h
    split at h
    · simp only [Option.bind_eq_bind, Option.bind_eq_some_iff, Option.pure_def, Option.some.injEq] at h
      obtain ⟨_, _, _, _, rfl⟩ := h
      simp [ItemId.widths] at fit
      simp [itemInRange, slotInRange, within_iff, Eight.toList]
      omega
    · cases h
  next =>
    cases h
    simp only [itemInRange, Eight.all_toList, Eight.get_map]
    exact fun k => within_clamp (by decide) _
  next =>
    unfold gearsItem at h
    split at h
    · simp only [Option.bind_eq_bind, Option.bind_eq_some_iff, Option.pure_def, Option.some.injEq] at h
      obtain ⟨e1, h1, e2, h2, e3, h3, e4, h4, e5, h5, e6, h6, rfl⟩ := h
      simp only [itemInRange, List.all_eq_true, List.mem_filterMap, id, Six.toList, List.mem_cons, List.not_mem_nil,
        or_false]
      rintro e ⟨g, hg, he⟩
      rcases hg with rfl | rfl | rfl | rfl | rfl | rfl
      · exact gearEntryOf_inRange h1 e he
      · exact gearEntryOf_inRange h2 e he
      · exact gearEntryOf_inRange h3 e he
      · exact gearEntryOf_inRange h4 e he
      · exact gearEntryOf_inRange h5 e he
      · exact gearEntryOf_inRange h6 e he
    · cases h
  next => cases h; simp [itemInRange, within_clamp]
  next => cases h; simp [itemInRange, within_clamp]
  next => cases h; simp [itemInRange, within_clamp]
  next c ppr edge interval stall =>
    simp only [Option.map_eq_some_iff] at h
    obtain ⟨e, _, rfl⟩ := h
    simp [ItemId.widths] at fit
    simp only [itemInRange, channelInRange, Bool.and_eq_true]
    exact ⟨⟨within_clamp (by decide) _, within_iff.2 (by omega)⟩, within_clamp (by decide) _⟩
  next =>
    simp only [Option.map_eq_some_iff] at h
    obtain ⟨p, _, rfl⟩ := h
    simp [itemInRange, within_clamp]
  next =>
    unfold conditionsItem at h
    split at h
    · rename_i cold hot _ _ _ _ _
      have := clampInt_range (signed16 cold)
      have := clampInt_range (signed16 hot)
      cases h
      simp [itemInRange, conditionsInRange, within_clamp, *]
    · cases h
  next m map period duty polarity =>
    simp only [Option.map_eq_some_iff] at h
    obtain ⟨p, _, rfl⟩ := h
    simp [ItemId.widths] at fit
    simp only [itemInRange, lampInRange, Bool.and_eq_true]
    exact ⟨within_clamp (by decide) _, within_iff.2 (by omega)⟩
  next k =>
    unfold keyClassItem at h
    split at h
    · rename_i enabled base prefixLength presence alternate cls
      simp only [Option.bind_eq_bind, Option.bind_eq_some_iff, Option.pure_def, Option.some.injEq] at h
      obtain ⟨_, _, a, ha, _, _, rfl⟩ := h
      simp [ItemId.widths] at fit
      have stored : a.getD 0 < 4294967296 := by
        unfold optField at ha
        split at ha
        · split at ha <;> cases ha
          decide
        · cases ha; simp; omega
        · cases ha
      simp only [itemInRange, keyInRange, Bool.and_eq_true]
      exact ⟨⟨within_iff.2 (by omega), within_clamp (by decide) _⟩, within_iff.2 (by omega)⟩
    · cases h
  next =>
    unfold policyItem at h
    split at h
    · simp only [Option.bind_eq_bind, Option.bind_eq_some_iff] at h
      obtain ⟨o, _, h⟩ := h
      cases o
      · simp at h
        obtain ⟨_, rfl⟩ := h
        rfl
      · simp [Option.bind_eq_some_iff] at h
        obtain ⟨_, _, _, rfl⟩ := h
        rfl
    · cases h
  next =>
    simp only [Option.map_eq_some_iff] at h
    obtain ⟨w, _, rfl⟩ := h
    simp [itemInRange, within_clamp]
  next => cases h

/-- What SET_ITEM stores from a payload lies in its range (R139). -/
theorem itemInRange_itemOfPayload {bs : List Byte} {i : ItemId} {v : ItemValue} (h : itemOfPayload bs = .ok (i, v)) :
    itemInRange v = true := by
  unfold itemOfPayload at h
  split at h
  · cases h
  · split at h
    · cases h
    · split at h
      · cases h
      · rename_i vs hs
        split at h
        · cases h
        · rename_i hv
          cases h
          exact itemInRange_itemOfFields (splitFields_lt hs) hv

/-! ## The three sets -/

theorem settingsInRange_iff (s : State) : settingsInRange s = true ↔
    inRange s.config.armed = true ∧ inRange (s.config.staging.getD s.config.armed) = true ∧
      ∀ i ∈ imagesOf s, inRange i.armed = true := by
  simp only [settingsInRange, Bool.and_eq_true, List.all_eq_true, and_assoc]

theorem inRange_factory : inRange factorySettings = true := by decide

/-- The armed and the staging set of a state both lie in their ranges. -/
def ConfigInRange (c : Configuration) : Prop := inRange c.armed = true ∧ inRange (c.staging.getD c.armed) = true

theorem Change.configInRange {c : Instr} {f : Frame} {s u : State} (h : Change c f s u)
    (range : ConfigInRange s.config) : ConfigInRange u.config := by
  obtain ⟨armed, staging⟩ := range
  cases h with
  | setup => exact ⟨armed, staging⟩
  | item _ _ st i v hs hv =>
    rw [hs] at staging
    exact ⟨armed, inRange_storeItem staging (itemInRange_itemOfPayload hv)⟩
  | unchanged => exact ⟨armed, armed⟩
  | abandoned => exact ⟨armed, armed⟩
  | defaults => exact ⟨armed, inRange_factory⟩
  | swapped _ _ new hs =>
    rw [hs] at staging
    rw [(swap_steady new s).config]
    exact ⟨staging, staging⟩
  | opened => simpa [openNewHire] using ⟨armed, staging⟩
  | closed => simpa using ⟨armed, staging⟩
  | declared => simpa using ⟨armed, staging⟩
  | serviced => simpa [changeSlot] using ⟨armed, staging⟩
  | installed => simpa [changeSlot] using ⟨armed, staging⟩
  | cleared => simpa [clearAccounts] using ⟨armed, staging⟩
  | flagsCleared => simpa using ⟨armed, staging⟩
  | _ => exact ⟨armed, staging⟩

theorem steadyLaw_settingsInRange : SteadyLaw (fun s => settingsInRange s = true) where
  steady {s t} h k := by
    rw [settingsInRange_iff] at k ⊢
    obtain ⟨armed, staging, images⟩ := k
    refine ⟨h.config ▸ armed, h.config ▸ staging, fun i hi => ?_⟩
    rcases h.images i hi with hi | ⟨hf, _⟩
    · exact images i hi
    · exact hf ▸ armed
  clock _ _ h := h
  stop p s h := by
    rw [settingsInRange_iff] at h ⊢
    obtain ⟨_, _, images⟩ := h
    exact ⟨inRange_factory, inRange_factory, fun i hi => images i (imagesOf_stopped p s i hi)⟩
  restore b s h := by
    rw [settingsInRange_iff] at h ⊢
    obtain ⟨_, _, images⟩ := h
    have kept : ∀ i ∈ imagesOf (endRestore b s), inRange i.armed = true := fun i hi =>
      images i (imagesOf_endRestore b s i hi)
    rcases endRestore_cases b s with e | ⟨a, i, hi, e⟩ <;> rw [e] at kept ⊢
    · exact ⟨inRange_factory, inRange_factory, kept⟩
    · exact ⟨images i hi, images i hi, kept⟩
  completed h k := by
    rw [settingsInRange_iff] at k ⊢
    obtain ⟨armed, staging, images⟩ := k
    exact ⟨h.config ▸ armed, h.config ▸ staging, fun i hi => images i (h.images i hi)⟩
  received _ _ _ _ h := h
  lineFree h := h
  taken _ h := h
  request {c f s t} _ hw h := by
    rw [settingsInRange_iff] at h ⊢
    obtain ⟨armed, staging, images⟩ := h
    obtain ⟨u, change, ends⟩ := hw
    obtain ⟨l, follows, _⟩ := ends.steady
    obtain ⟨uarmed, ustaging⟩ := change.configInRange ⟨armed, staging⟩
    have uimages : ∀ i ∈ imagesOf u, inRange i.armed = true := fun i hi => by
      rcases change.tame.images i hi with hi | ⟨hf, _⟩
      · exact images i hi
      · exact hf ▸ uarmed
    refine ⟨follows.config ▸ uarmed, follows.config ▸ ustaging, fun i hi => ?_⟩
    rcases follows.images i hi with hi | ⟨hf, _⟩
    · exact uimages i hi
    · exact hf ▸ uarmed

/-- Settles O10: every set comes from SET_ITEM, which clamps, from the factory, or from another set in range. -/
theorem settingsStayInRange : Obligations.SettingsStayInRange := by
  intro s t h hs
  exact step_keeps (fun _ _ k => k) (fun c _ _ k => steadyLaw_settingsInRange.exec c k _) h hs

end Sys2Proof.Machine
end

section
/-! The staging set (sections 8.2 and 8.4): what SET_ITEM refuses and what it stores, and the requests that make, drop
and fill the staging set. -/

namespace Sys2Proof.Machine

set_option Elab.async false

open Sys2Proof Sys2Proof.Safety

/-! ## Codes that name nothing (R139) -/

theorem lawOfCode_eq_none {n : Nat} : lawOfCode n = none ↔ 5 < n := by
  match n with
  | 0 | 1 | 2 | 3 | 4 | 5 => simp [lawOfCode]
  | n + 6 => simp [lawOfCode]

theorem conditionsOfCode_eq_none {n : Nat} : conditionsOfCode n = none ↔ 15 < n := by
  unfold conditionsOfCode
  split <;> simp <;> omega

theorem edgeOfCode_eq_none {n : Nat} : edgeOfCode n = none ↔ 2 < n := by
  match n with
  | 0 | 1 | 2 => simp [edgeOfCode]
  | n + 3 => simp [edgeOfCode]

theorem polarityOfCode_eq_none {n : Nat} : polarityOfCode n = none ↔ 1 < n := by
  match n with
  | 0 | 1 => simp [polarityOfCode]
  | n + 2 => simp [polarityOfCode]

theorem classOfCode_eq_none {n : Nat} : classOfCode n = none ↔ 2 < n := by
  match n with
  | 0 | 1 | 2 => simp [classOfCode]
  | n + 3 => simp [classOfCode]

theorem boolOfCode_eq_none {n : Nat} : boolOfCode n = none ↔ 1 < n := by
  match n with
  | 0 | 1 => simp [boolOfCode]
  | n + 2 => simp [boolOfCode]

theorem optField_eq_none {p v : Nat} : optField p v = none ↔ 1 < p ∨ p = 0 ∧ v ≠ 0 := by
  match p with
  | 0 => by_cases h : v = 0 <;> simp [optField, h]
  | 1 => simp [optField]
  | n + 2 => simp [optField]

theorem gearEntryOf_eq_none {p n t : Nat} :
    gearEntryOf p n t = none ↔ 1 < p ∨ p = 0 ∧ (n ≠ 0 ∨ t ≠ 0) := by
  match p with
  | 0 => by_cases hn : n = 0 <;> by_cases ht : t = 0 <;> simp [gearEntryOf, hn, ht]
  | 1 => simp [gearEntryOf]
  | p + 2 => simp [gearEntryOf]

theorem boolOfCode_of_le {n : Nat} (h : n ≤ 1) : boolOfCode n = some (n == 1) := by
  match n, h with
  | 0, _ => rfl
  | 1, _ => rfl

/-! ## What an item's fields are refused for -/

theorem slotItem_eq_none {k : Slot} {law map advisory limit a b c d e f g h : Nat} :
    itemOfFields (.slot k) [law, a, b, c, d, e, f, g, h, map, advisory, limit] = none ↔ 5 < law ∨ 15 < map := by
  rw [← lawOfCode_eq_none, ← conditionsOfCode_eq_none]
  simp only [itemOfFields, slotItem]
  cases lawOfCode law <;> cases conditionsOfCode map <;> simp

theorem gearsItem_eq_none {p1 n1 t1 p2 n2 t2 p3 n3 t3 p4 n4 t4 p5 n5 t5 p6 n6 t6 : Nat} :
    itemOfFields .gears [p1, n1, t1, p2, n2, t2, p3, n3, t3, p4, n4, t4, p5, n5, t5, p6, n6, t6] = none ↔
      gearEntryOf p1 n1 t1 = none ∨ gearEntryOf p2 n2 t2 = none ∨ gearEntryOf p3 n3 t3 = none ∨
        gearEntryOf p4 n4 t4 = none ∨ gearEntryOf p5 n5 t5 = none ∨ gearEntryOf p6 n6 t6 = none := by
  simp only [itemOfFields, gearsItem]
  cases gearEntryOf p1 n1 t1 with
  | none => simp
  | some => cases gearEntryOf p2 n2 t2 with
    | none => simp
    | some => cases gearEntryOf p3 n3 t3 with
      | none => simp
      | some => cases gearEntryOf p4 n4 t4 with
        | none => simp
        | some => cases gearEntryOf p5 n5 t5 with
          | none => simp
          | some => cases gearEntryOf p6 n6 t6 <;> simp

theorem keyClassItem_eq_none {k : Fin 8} {enabled base n presence alternate cls : Nat} :
    itemOfFields (.keyClass k) [enabled, base, n, presence, alternate, cls] = none ↔
      1 < enabled ∨ 1 < presence ∨ presence = 0 ∧ alternate ≠ 0 ∨ 2 < cls := by
  rw [← boolOfCode_eq_none, ← classOfCode_eq_none, ← or_assoc (a := 1 < presence), ← optField_eq_none]
  simp only [itemOfFields, keyClassItem]
  cases boolOfCode enabled <;> cases optField presence alternate <;> cases classOfCode cls <;> simp

theorem policyItem_eq_none {presence cls closes : Nat} :
    itemOfFields .policy [presence, cls, closes] = none ↔
      1 < presence ∨ presence = 0 ∧ cls ≠ 0 ∨ presence = 1 ∧ 2 < cls ∨ 7 < closes := by
  have code := classOfCode_eq_none (n := cls)
  simp only [itemOfFields, policyItem]
  match presence with
  | 0 =>
    by_cases h0 : cls = 0 <;> by_cases h7 : closes < 8 <;> simp [optField, h0, h7] <;> omega
  | 1 =>
    by_cases h7 : closes < 8 <;> cases hc : classOfCode cls <;> simp [optField, h7, hc] at code ⊢ <;> omega
  | n + 2 => simp [optField]

theorem itemOfId_eq_some {n : Nat} {i : ItemId} (h : itemOfId n = some i) : i.number = n := by
  have index : ∀ {m : Nat} {k : Fin 8}, eightIndex m = some k → k.val = m := by
    intro m k hk
    unfold eightIndex at hk
    split at hk <;> cases hk
    rfl
  unfold itemOfId at h
  split at h
  all_goals first | (cases h; rfl) | skip
  split at h
  · rw [Option.map_eq_some_iff] at h
    obtain ⟨k, hk, rfl⟩ := h
    exact index hk
  · split at h
    · rw [Option.map_eq_some_iff] at h
      obtain ⟨k, hk, rfl⟩ := h
      have := index hk
      simp only [ItemId.number]
      omega
    · cases h

/-! ## The requests -/

section
variable {f : Frame} {rest : List Frame} {s : State}

theorem exec_setItem (head : atHead 0x31 f rest s) :
    exec .setItem s = .next (arbitrate (setItemWork f { s with link.queue := rest })) :=
  takeKind_of_atHead head

/-- SET_ITEM in SETUP refuses what its payload is refused for. -/
theorem exec_setItem_refused {st : Settings} {code : ReplyCode} (head : atHead 0x31 f rest s)
    (staging : s.config.staging = some st) (refused : itemOfPayload f.payload = .error code) :
    exec .setItem s = .next (arbitrate (replied f rest code [] s)) := by
  rw [exec_setItem head]
  simp only [setItemWork, staging, refused]
  rfl

/-- SET_ITEM in SETUP stores the item that its payload carries. -/
theorem exec_setItem_stored {st : Settings} {i : ItemId} {v : ItemValue} (head : atHead 0x31 f rest s)
    (staging : s.config.staging = some st) (carries : itemOfPayload f.payload = .ok (i, v)) :
    exec .setItem s = .next (arbitrate (replied f rest .done (.num 1 i.number :: itemFields (storeItem st v) i)
      { s with config.staging := some (storeItem st v) })) := by
  rw [exec_setItem head]
  simp only [setItemWork, staging, carries]
  rfl

end

/-- Settles O57: the requests on the staging set; the refusals of SET_ITEM code by code; its clamps item by item. -/
theorem stagingIsEdited : Obligations.StagingIsEdited := by
  unfold Obligations.StagingIsEdited
  refine ⟨fun s f rest empty => ⟨fun head => ?enter, fun head => ?abandon, fun head => ?defaults, by decide⟩,
    fun s f rest head => ⟨fun none_ => ?notInSetup, fun st staging empty => ?noBytes,
      fun st b bytes staging payload => ⟨fun unknown => ?unknown, fun i known =>
        ⟨fun length => ?length, fun vs split refused => ?code, fun vs v split stored => ?stored⟩⟩⟩,
    ⟨?slot, ?gears, rfl, ?channel, ?line, ?lamp, ?key, ?policy, ?timing, ?timing0⟩,
    ⟨?bands, ?gear, ?engine, ?pairs, ?channelClamps, ?lineClamps, ?conditions, ?lampClamps, ?keyClamps, ?timing1⟩⟩
  case enter =>
    rw [exec_bare (i := .enterSetup) (fun _ => rfl) head empty]
    unfold enterSetupWork
    split <;> rfl
  case abandon => rw [exec_bare (i := .abandon) (fun _ => rfl) head empty]; rfl
  case defaults =>
    rw [exec_bare (i := .loadDefaults) (fun _ => rfl) head empty]
    unfold loadDefaultsWork State.inSetup
    split <;> rfl
  case notInSetup =>
    rw [exec_setItem head]
    simp only [setItemWork, none_]
    rfl
  case noBytes => exact exec_setItem_refused head staging (by simp only [itemOfPayload, empty])
  case unknown => exact exec_setItem_refused head staging (by simp only [itemOfPayload, payload, unknown])
  case length =>
    exact exec_setItem_refused head staging (by
      simp only [itemOfPayload, payload, known, (splitFields_eq_none_iff i.widths bytes).mpr length])
  case code =>
    exact exec_setItem_refused head staging (by simp only [itemOfPayload, payload, known, split, refused])
  case stored =>
    rw [exec_setItem_stored (i := i) (v := v) head staging
      (by simp only [itemOfPayload, payload, known, split, stored]), itemOfId_eq_some known]
  case slot =>
    refine fun k law map advisory limit a b c d e f g h => ⟨slotItem_eq_none, ?_⟩
    rintro l m rfl rfl
    simp [itemOfFields, slotItem]
  case gears => intros; simp only [gearsItem_eq_none, gearEntryOf_eq_none]
  case channel => intros; simp only [itemOfFields, Option.map_eq_none_iff, edgeOfCode_eq_none]
  case line => intros; simp only [itemOfFields, Option.map_eq_none_iff, polarityOfCode_eq_none]
  case lamp => intros; simp only [itemOfFields, Option.map_eq_none_iff, polarityOfCode_eq_none]
  case key =>
    refine fun k enabled base n presence alternate cls => ⟨keyClassItem_eq_none, ?_⟩
    rintro x on rfl rfl rfl
    simp [itemOfFields, keyClassItem, boolOfCode_of_le on, clamp]
  case policy =>
    refine fun presence cls closes => ⟨policyItem_eq_none, ?_, ?_⟩
    · rintro fit rfl rfl
      simp [itemOfFields, policyItem, Nat.lt_succ_of_le fit]
    · rintro x fit rfl rfl
      simp [itemOfFields, policyItem, Nat.lt_succ_of_le fit]
  case timing => intros; simp only [itemOfFields, Option.map_eq_none_iff, boolOfCode_eq_none]
  case timing0 => intros; rfl
  case bands => intros; rfl
  case gear => intros; rfl
  case engine => intros; rfl
  case pairs => intros; exact ⟨rfl, rfl⟩
  case channelClamps => intros; simp only [itemOfFields, edgeOfCode_code]; rfl
  case lineClamps => intros; simp only [itemOfFields, polarityOfCode_code]; rfl
  case conditions => intros; rfl
  case lampClamps => intros; simp only [itemOfFields, polarityOfCode_code]; rfl
  case keyClamps => intro k c base n alternate; simp [itemOfFields, keyClassItem, boolOfCode, clamp]
  case timing1 => intros; rfl

end Sys2Proof.Machine
end

section
/-! DECLARE_CONDITION, RECORD_SERVICE and INSTALL_UNIT (sections 2.4 and 5.2). -/

namespace Sys2Proof.Machine

set_option Elab.async false

open Sys2Proof Sys2Proof.Safety

/-! ## Marks -/

theorem mem_newlySet {p : SlotMeters → Bool} {before after : Eight SlotMeters} {k : Slot} :
    k ∈ newlySet p before after ↔ p (before.get k) = false ∧ p (after.get k) = true := by
  simp [newlySet]

theorem newlySet_eq_nil {p : SlotMeters → Bool} {before after : Eight SlotMeters}
    (h : ∀ k, p (after.get k) = true → p (before.get k) = true) : newlySet p before after = [] := by
  refine List.eq_nil_iff_forall_not_mem.2 fun k hk => ?_
  obtain ⟨old, new⟩ := mem_newlySet.1 hk
  rw [h k new] at old
  cases old

/-- An event that sets no mark raises no flag. -/
theorem raiseMarks_of_none {before : Eight SlotMeters} {s : State}
    (due : ∀ k, (s.table.slots.get k).due = true → (before.get k).due = true)
    (advisory : ∀ k, (s.table.slots.get k).advisory = true → (before.get k).advisory = true)
    (frozen : ∀ k, (s.table.slots.get k).frozen = true → (before.get k).frozen = true) : raiseMarks before s = s := by
  unfold raiseMarks
  rw [newlySet_eq_nil due, newlySet_eq_nil advisory, newlySet_eq_nil frozen]
  rfl

/-- No threshold holds at a wear of 0 since the service (R86). -/
theorem remark_of_serviced (c : SlotSettings) {m : SlotMeters} (h : m.sinceService = 0) :
    remark c m = { m with advisory := false, due := false } := by
  have advisory : c.advisoryHolds 0 = false := by
    simp only [SlotSettings.advisoryHolds, Nat.le_zero_eq]
    by_cases hc : c.advisory = 0 <;> simp [hc]
  have due : c.dueHolds 0 = false := by
    simp only [SlotSettings.dueHolds, SlotSettings.dueAt, Nat.le_zero_eq]
    by_cases hc : c.limit = 0 <;> simp [hc]
  simp only [remark, h, advisory, due]

/-- A change of one slot that brings its wear since the service to 0, and leaves its FROZEN mark, clears its other marks
and raises no flag. -/
theorem changeSlot_of_serviced {k : Slot} {change : SlotMeters → SlotMeters} {s : State}
    (since : (change (s.table.slots.get k)).sinceService = 0)
    (frozen : (change (s.table.slots.get k)).frozen = (s.table.slots.get k).frozen) :
    changeSlot k change s =
      formLamps
        { s with
          table.slots := s.table.slots.set k
            { change (s.table.slots.get k) with advisory := false, due := false } } := by
  simp only [changeSlot, marksChanged, remark_of_serviced _ since]
  rw [raiseMarks_of_none]
  all_goals
    intro j
    simp only [Eight.get_set]
    split
    · subst j
      simp [frozen]
    · exact id

theorem declare_absent (l : LoadState) (s : State) :
    declare l none s =
      if s.duty.fresh then
        raise .conditionStale .none { s with duty.load := l, duty.fresh := false, duty.freshTimer := 0 }
      else { s with duty.load := l } := by
  simp only [declare, goStale]

@[simp] theorem loadOfCode_code (l : LoadState) : loadOfCode l.code = some l := by cases l <;> rfl

theorem loadOfCode_eq_none {n : Nat} : loadOfCode n = none ↔ 2 < n := by
  match n with
  | 0 | 1 | 2 => simp [loadOfCode]
  | n + 3 => simp [loadOfCode]

/-- The three values of a declaration, from the payload that carries them. -/
theorem splitFields_declaration (load presence : Byte) {value : Nat} (small : value < 65536) :
    splitFields [1, 1, 2] (load :: presence :: bytesOf 2 value) = some [load.toNat, presence.toNat, value] := by
  rw [splitFields_byte, splitFields_byte, splitFields_one small]
  rfl

theorem splitFields_unit (b : Byte) {carried : Nat} (small : carried < 4294967296) :
    splitFields [1, 4] (b :: bytesOf 4 carried) = some [b.toNat, carried] := by
  rw [splitFields_byte, splitFields_one small]
  rfl

theorem declareWork_refused {f : Frame} {load presence value : Nat} {s : State}
    (h : 2 < load ∨ 1 < presence ∨ presence = 0 ∧ value ≠ 0) :
    declareWork f load presence value s = refuse f .refusedRange s := by
  have : loadOfCode load = none ∨ coolantOf presence value = none := by
    rw [loadOfCode_eq_none, coolantOf, Option.map_eq_none_iff, optField_eq_none]
    exact h
  unfold declareWork
  split
  · simp_all
  · rfl

theorem declareWork_declared {f : Frame} {l : LoadState} {presence value : Nat} {c : Option Int} {s : State}
    (h : coolantOf presence value = some c) :
    declareWork f l.code presence value s = answerDone f (conditionFields (declare l c s)) (declare l c s) := by
  simp only [declareWork, loadOfCode_code, h]

/-- Settles O56: the declaration by its presence byte; the two changes of a slot, which clear its marks. -/
theorem conditionsServicesAndUnitsAreRecorded : Obligations.ConditionsServicesAndUnitsAreRecorded := by
  unfold Obligations.ConditionsServicesAndUnitsAreRecorded
  refine ⟨fun s f rest load presence value head payload small => ?declare, fun s f rest b =>
    ⟨fun head payload above => ?serviceAbove, fun k head payload is => ?service, fun carried small head payload => ?unit⟩⟩
  case declare =>
    rw [exec_fields (i := .declareCondition) (fun _ => rfl) head (payload ▸ splitFields_declaration load presence small)]
    simp only [List.getD_cons_zero, List.getD_cons_succ]
    refine ⟨fun refused => ?_, fun l code present => ?_, fun l code absent zero => ?_⟩
    · rw [declareWork_refused, refuse_taken]
      simpa [← BitVec.toNat_inj] using refused
    · subst present
      rw [← code, declareWork_declared (c := some (signed16 value)) rfl]
      rfl
    · subst absent zero
      rw [← code, declareWork_declared (c := none) rfl, declare_absent]
      split
      · rfl
      · rename_i stale
        have stale : s.duty.fresh = false := Bool.eq_false_iff.2 stale
        simp only [conditionFields, stale]
        rfl
  case serviceAbove =>
    rw [exec_byte (i := .recordService) (fun _ => rfl) head payload, onSlot_of_gt above, refuse_taken]
  case service =>
    rw [exec_byte (i := .recordService) (fun _ => rfl) head payload, onSlot_of_eq is]
    unfold recordServiceWork
    rw [changeSlot_of_serviced rfl rfl]
    simp only [formLamps_frame, Eight.get_set]
    rw [← deferReply_taken, ← formLamps_queue]
    rfl
  case unit =>
    have fields := exec_fields (i := .installUnit) (fun _ => rfl) head (payload ▸ splitFields_unit b small)
    refine ⟨fun above => ?_, fun k is => ?_⟩
    · rw [fields]
      simp only [List.getD_cons_zero]
      rw [onSlot_of_gt above, refuse_taken]
    · rw [fields]
      simp only [List.getD_cons_zero, List.getD_cons_succ]
      rw [onSlot_of_eq is]
      unfold installUnitWork
      rw [changeSlot_of_serviced rfl rfl, ← deferReply_taken, ← formLamps_queue]
      rfl

end Sys2Proof.Machine
end

section
/-! The layouts of the control link (sections 11.2, 11.3 and 11.7): KINDs, record lengths, codes and flag words, and the
bytes of each kind of field. -/

namespace Sys2Proof.Machine

set_option Elab.async false

open Sys2Proof Sys2Proof.Safety

/-! ## KINDs -/

theorem requestOfKind_of_kindOfRequest {i : Instr} {kind : Byte} (h : kindOfRequest i = some kind) :
    requestOfKind kind = some i ∧ isReplyKind kind = false := by
  cases i <;> cases h <;> exact ⟨rfl, rfl⟩

theorem kindOfRequest_of_requestOfKind {i : Instr} {kind : Byte} (h : requestOfKind kind = some i) :
    kindOfRequest i = some kind := by
  unfold requestOfKind at h
  split at h
  all_goals
    first
    | cases h
      exact congrArg some (BitVec.eq_of_toNat_eq (Eq.symm ‹_›))
    | cases h

/-! ## Lengths -/

/-- The number of bytes of a field. -/
def Field.size : Field → Nat
  | .num w _ => w
  | .temp _ => 2
  | .time _ => 5
  | .opt w _ => w + 1
  | .optTemp _ => 3
  | .optTime _ => 6
  | .hireNo _ => 5

theorem Field.length_encode (secured : Nat) (f : Field) : (f.encode secured).length = f.size := by
  cases f with
  | num | temp | time => simp [Field.encode, Field.size]
  | opt w v => cases v <;> simp [Field.encode, Field.size, Nat.add_comm]
  | optTemp t => cases t <;> simp [Field.encode, Field.size]
  | optTime t => cases t <;> simp [Field.encode, Field.size]
  | hireNo n =>
    cases n with
    | none => simp [Field.encode, Field.size]
    | some n => by_cases h : n < secured <;> simp [Field.encode, Field.size, h]

/-- The length of fields together is the sum of their sizes, whatever they hold. -/
theorem length_encodeFields (secured : Nat) (fs : List Field) :
    (encodeFields secured fs).length = (fs.map Field.size).sum := by
  simp only [encodeFields, List.length_flatMap, Field.length_encode]

theorem recoveryFields_size (r : Option (Eight Nat)) : (recoveryFields r).map Field.size = 1 :: List.replicate 8 4 := by
  cases r <;> rfl

theorem noticeFields_size (f : Flag) (r : Raised) : (noticeFields f r).map Field.size = [1, 5, 5] := by
  obtain ⟨d, t⟩ := r
  cases d <;> rfl

/-! ## Flag words -/

/-- The bits of a word to which flags with ascending numbers are added, from one below a power of two. -/
theorem foldl_flags_testBit (p : Flag → Bool) (k : Nat) (l : List Flag) (j n : Nat) (small : n < 2 ^ j)
    (numbers : l.map Flag.number = List.range' (j + 1) l.length) :
    (l.foldl (fun n f => if p f then n + 2 ^ (f.number - 1) else n) n).testBit k = true ↔
      n.testBit k = true ∨ ∃ f ∈ l, f.number = k + 1 ∧ p f = true := by
  induction l generalizing j n with
  | nil => simp
  | cons f l ih =>
    simp only [List.map_cons, List.length_cons, List.range'_succ, List.cons.injEq] at numbers
    obtain ⟨number, numbers⟩ := numbers
    have bit : 2 ^ (f.number - 1) = 2 ^ j := by rw [number]; rfl
    have grown : (if p f then n + 2 ^ (f.number - 1) else n) < 2 ^ (j + 1) := by
      rw [bit, Nat.pow_succ]
      split <;> omega
    rw [List.foldl_cons, ih (j + 1) _ grown numbers]
    have head : (if p f then n + 2 ^ (f.number - 1) else n).testBit k = true ↔
        n.testBit k = true ∨ f.number = k + 1 ∧ p f = true := by
      rw [bit, number]
      by_cases hp : p f = true
      · simp only [hp, if_true, and_true]
        rcases lt_trichotomy k j with h | rfl | h
        · rw [Nat.add_comm, Nat.testBit_two_pow_add_gt h]
          exact ⟨.inl, fun h => h.resolve_right (by omega)⟩
        · rw [Nat.add_comm, Nat.testBit_two_pow_add_eq, Nat.testBit_lt_two_pow small]
          simp
        · have above : 2 ^ (j + 1) ≤ 2 ^ k := Nat.pow_le_pow_right (by decide) h
          rw [Nat.testBit_lt_two_pow (by rw [Nat.pow_succ] at above; omega),
            Nat.testBit_lt_two_pow (by rw [Nat.pow_succ] at above; omega)]
          simp only [Bool.false_eq_true, false_or, false_iff]
          omega
      · simp [hp]
    rw [head, or_assoc, List.exists_mem_cons_iff]

/-- Bit k of a flag word stands for the flag of number k + 1 (section 11.7.1). -/
theorem flagWord_testBit (p : Flag → Bool) (k : Nat) :
    (flagWord p).testBit k = true ↔ ∃ f : Flag, f.number = k + 1 ∧ p f = true := by
  unfold flagWord
  rw [foldl_flags_testBit p k allFlags 0 0 (by decide) rfl]
  simp [mem_allFlags]

/-! ## Temperatures -/

theorem unsigned16_of_range {c : Int} (low : -32768 ≤ c) (high : c < 32768) :
    unsigned16 c = (if c < 0 then c + 65536 else c).toNat := by
  unfold unsigned16
  split <;> omega

theorem isReplyKind_requestOfKind {kind : Byte} (reply : isReplyKind kind = true) : requestOfKind kind = none := by
  cases h : requestOfKind kind with
  | none => rfl
  | some i =>
    have other := (requestOfKind_of_kindOfRequest (kindOfRequest_of_requestOfKind h)).2
    exact absurd (reply.symm.trans other) (by decide)

theorem hireFields_length (n : Nat) (h : HireRecord) : (encodeFields n (hireFields h)).length = 123 := by
  rw [length_encodeFields]
  simp [hireFields, recoveryFields_size, nums8, Eight.toList, counterFields, startFields, Field.size]

theorem summaryFields_length (n : Nat) (m : Summary) : (encodeFields n (summaryFields m)).length = 137 := by
  rw [length_encodeFields]
  simp [summaryFields, recoveryFields_size, nums8, Eight.toList, counterFields, startFields, Field.size]

theorem noticeFields_length (n : Nat) (f : Flag) (r : Raised) : (encodeFields n (noticeFields f r)).length = 11 := by
  rw [length_encodeFields, noticeFields_size]
  rfl

theorem statusFields_length (n : Nat) (s : State) : (encodeFields n (statusFields s)).length = 27 := by
  simp [length_encodeFields, statusFields, Field.size]

theorem reportFields_length (n : Nat) (s : State) : (encodeFields n (reportFields s)).length = 18 := by
  simp [length_encodeFields, reportFields, Field.size]

theorem startEntryFields_length (n : Nat) (e : StartEntry) : (encodeFields n (startEntryFields e)).length = 23 := by
  simp [length_encodeFields, startEntryFields, Field.size]

/-- Settles O14: KINDs and requests name each other; lengths are sums of sizes; codes and layouts are read off. -/
theorem kindsAndRecordsAreLaidOut : Obligations.KindsAndRecordsAreLaidOut := by
  unfold Obligations.KindsAndRecordsAreLaidOut
  refine ⟨⟨fun kind i => ⟨kindOfRequest_of_requestOfKind, fun h => (requestOfKind_of_kindOfRequest h).1⟩,
      fun kind reply => isReplyKind_requestOfKind reply⟩, fun n s h m e f r => ?lengths,
    ⟨fun h => ?hire, fun m => ?summary, fun e => ?start, fun f d t => ?notice, fun s => rfl⟩,
    ⟨⟨rfl, rfl, rfl, rfl, rfl, fun h => ⟨rfl, rfl⟩, rfl, rfl, rfl, rfl, fun f => rfl, rfl⟩, fun c => ?conditions,
      fun m => ?status, fun t k => ⟨flagWord_testBit _ k, flagWord_testBit _ k⟩, rfl, rfl⟩,
    ⟨fun w n => ⟨length_bytesOf w n, valueOf_bytesOf⟩, fun n w v t c => ?fields⟩, fun secured n => ?numbers⟩
  case lengths =>
    exact ⟨statusFields_length n s, hireFields_length n h, summaryFields_length n m, startEntryFields_length n e,
      noticeFields_length n f r, reportFields_length n s⟩
  case hire =>
    obtain ⟨_, _, _, _, _, _, _, recovery, _⟩ := h
    cases recovery <;> rfl
  case summary =>
    obtain ⟨_, _, _, cls, _, _, _, cause, _, _, recovery, _⟩ := m
    have clsCode : cls.code = (match cls with
        | .one .customer => 0
        | .one .staff => 1
        | .one .workshop => 2
        | .mixed => 3) := by
      rcases cls with c | _
      · cases c <;> rfl
      · rfl
    have causeCode : cause.code = (match cause with
        | .hostClose => 0
        | .superseded => 1
        | .ignitionOff => 2) := by cases cause <;> rfl
    simp only [summaryFields, clsCode, causeCode]
    cases recovery <;> rfl
  case start =>
    obtain ⟨_, _, cls, _⟩ := e
    cases cls <;> rfl
  case notice => cases d <;> rfl
  case conditions =>
    obtain ⟨a, b, c, d⟩ := c
    revert a b c d
    decide
  case status =>
    simp only [SlotMeters.statusCode, boolCode]
    generalize m.advisory = a, m.due = d, m.frozen = z
    revert a d z
    decide
  case fields =>
    refine ⟨rfl, rfl, rfl, ?_, rfl, rfl, fun low high => ⟨?_, ?_⟩, rfl⟩
    · simp only [Field.encode, bytesOf_zero]
      rfl
    · simp only [Field.encode, unsigned16_of_range low high]
    · simp only [Field.encode, unsigned16_of_range low high]
      rfl
  case numbers =>
    cases n with
    | none => rfl
    | some k =>
      by_cases h : k < secured
      · simp only [Field.encode, h, if_true]
        rfl
      · simp only [Field.encode, h, if_false]
        rfl

end Sys2Proof.Machine
end

section
/-! Start-up, stop and wake (sections 9.4, 9.5 and 10.4). -/

namespace Sys2Proof.Machine

set_option Elab.async false

open Sys2Proof Sys2Proof.Safety

/-! ## Stops -/

theorem areasAtStop_get (st : Store) (a : Area) :
    st.areasAtStop.get a =
      match st.commit with
      | .idle => st.areas.get a
      | .inFlight f | .inFlightPending f => if a = f.area then .unreadable else st.areas.get a := by
  unfold Store.areasAtStop
  split <;> simp [Four.get_set, *]

theorem areasAtStop_of_idle {st : Store} (idle : st.commit = .idle) : st.areasAtStop = st.areas := by
  simp only [Store.areasAtStop, idle]

/-- A part that is stopped drives its lamps low and releases ATTN. -/
theorem dark_of_stopped {p : Power} (off : p = .unpowered ∨ p = .held) (s : State) :
    (∀ m, (stopped p s).lampHigh m = false) ∧ (stopped p s).attnLow = false := by
  rcases off with rfl | rfl <;> exact ⟨fun m => rfl, rfl⟩

/-- Settles O15: a stop is `stopped`, of which every field is read off; start-up begins with the same state. -/
theorem partStopsAndStartsUp : Obligations.PartStopsAndStartsUp := by
  unfold Obligations.PartStopsAndStartsUp
  refine ⟨fun s c on which => ?stop, fun s => ⟨fun off => ?powerOn, fun low => ?rise⟩⟩
  case stop =>
    rcases which with rfl | rfl
    · obtain ⟨lamps, attn⟩ := dark_of_stopped (.inl rfl) { s with clock.supplyOn := false }
      refine ⟨stopped .unpowered { s with clock.supplyOn := false }, by simp [exec, execPowerLoss, on], rfl, rfl,
        by simp [stopped], fun a => ?_, rfl, rfl, rfl, rfl, rfl, rfl, rfl, rfl, rfl, rfl, rfl, lamps, attn, rfl⟩
      exact areasAtStop_get s.store a
    · obtain ⟨lamps, attn⟩ := dark_of_stopped (.inr rfl) { s with clock.resetnHigh := false }
      refine ⟨stopped .held { s with clock.resetnHigh := false }, by simp [exec, execResetnLow, on], rfl,
        by simp [stopped, on], by simp [stopped], fun a => ?_, rfl, rfl, rfl, rfl, rfl, rfl, rfl, rfl, rfl, rfl, rfl,
        lamps, attn, rfl⟩
      exact areasAtStop_get s.store a
  case powerOn =>
    exact ⟨stopped (if s.clock.resetnHigh then .restore else .held) { s with clock.supplyOn := true },
      by simp [exec, execPowerOn, off], rfl, rfl, rfl, fun idle => areasAtStop_of_idle idle, rfl⟩
  case rise =>
    by_cases on : s.clock.supplyOn = true
    · exact ⟨stopped .restore { s with clock.resetnHigh := true }, by simp [exec, execResetnRise, low, on], rfl, rfl,
        by simp [stopped, on], fun idle => areasAtStop_of_idle idle, rfl⟩
    · exact ⟨{ s with clock.resetnHigh := true }, by simp [exec, execResetnRise, low, on], rfl, rfl, by simp [on],
        fun _ => rfl, rfl⟩

/-! ## Restore -/

/-- The areas in front of one area, that area, and those behind it. -/
theorem areas_eq_append (a : Area) : ∃ front back, ([0, 1, 2, 3] : List Area) = front ++ a :: back ∧ ∀ b ∈ front, b < a :=
  ⟨([0, 1, 2, 3] : List Area).take a.val, ([0, 1, 2, 3] : List Area).drop (a.val + 1), by revert a; decide,
    by revert a; decide⟩

/-- The valid image of one area, with the area. -/
def validIn (areas : Four AreaContents) (b : Area) : Option (Area × Image) :=
  match areas.get b with
  | .unreadable => none
  | .image j => if j.valid then some (b, j) else none

theorem validImages_eq (areas : Four AreaContents) :
    validImages areas = ([0, 1, 2, 3] : List Area).filterMap (validIn areas) := rfl

theorem validIn_area {areas : Four AreaContents} {b : Area} {p : Area × Image} (h : validIn areas b = some p) :
    p.1 = b := by
  unfold validIn at h
  split at h
  · cases h
  · split at h <;> cases h
    rfl

/-- The image of an area that none is newer than, and that is newer than those of all lower areas, is the newest
(R174). -/
theorem newestImage_of_maximal {areas : Four AreaContents} {a : Area} {i : Image} (mem : (a, i) ∈ validImages areas)
    (top : ∀ p ∈ validImages areas, p.2.newer i = false)
    (first : ∀ p ∈ validImages areas, p.1 < a → i.newer p.2 = true) : newestImage areas = some (a, i) := by
  have found : (validImages areas).find? (fun x => (validImages areas).all fun y => !y.2.newer x.2) = some (a, i) := by
    rw [List.find?_eq_some_iff_append]
    refine ⟨by simpa using fun b j h => top (b, j) h, ?_⟩
    obtain ⟨front, back, split, lower⟩ := areas_eq_append a
    obtain ⟨holds, valid⟩ := mem_validImages.1 mem
    have all : validImages areas =
        front.filterMap (validIn areas) ++ (a, i) :: back.filterMap (validIn areas) := by
      have here : validIn areas a = some (a, i) := by simp only [validIn, holds, valid, if_true]
      rw [validImages_eq, split, List.filterMap_append, List.filterMap_cons_some here]
    refine ⟨_, _, all, fun p hp => ?_⟩
    have hp' : p ∈ validImages areas := by rw [all]; exact List.mem_append_left _ hp
    obtain ⟨b, hb, hr⟩ := List.mem_filterMap.1 hp
    have newer := first p hp' (validIn_area hr ▸ lower b hb)
    simp only [Bool.not_eq_true', List.all_eq_false]
    exact ⟨(a, i), mem, by simpa using newer⟩
  simp only [newestImage, found]

theorem exec_restoreStepEnd {s : State} (high : Bool) (restoring : s.clock.power = .restore) :
    exec (.restoreStepEnd high) s = .next (endRestore high s) := by
  have asleep : (endRestore high s).awake = false := by
    rcases endRestore_cases high s with h | ⟨a, i, _, h⟩ <;> rw [h] <;> rfl
  simp only [exec, execRestoreStepEnd, whenDue, restoring, beq_self_eq_true, if_true, settled,
    arbitrate_of_not_awake asleep]

theorem mem_validImages_iff (areas : Four AreaContents) (a : Area) (i : Image) :
    (a, i) ∈ validImages areas ↔
      areas.get a = .image i ∧ i.check = crc16 (Config.imageBytes i.toImageFields) := by
  simp only [mem_validImages, Image.valid, beq_iff_eq, ImageFields.checkWord]

/-- Settles O16: the area found holds the newest image, whose fields the owners take. -/
theorem restoreTakesTheNewestImage : Obligations.RestoreTakesTheNewestImage := by
  unfold Obligations.RestoreTakesTheNewestImage
  intro s high a i restoring holds check maximal
  have newest : newestImage s.store.areas = some (a, i) := by
    refine newestImage_of_maximal ((mem_validImages_iff ..).2 ⟨holds, check⟩) (fun p hp => ?_) fun p hp lower => ?_
    all_goals
      obtain ⟨held, sound⟩ := (mem_validImages_iff s.store.areas p.1 p.2).1 hp
      obtain ⟨_, _, top, first⟩ := maximal p.1 p.2 held sound
    · simpa [Image.newer] using top
    · simpa [Image.newer] using first lower
  have restored : endRestore high s = { restoreImage a i (stopped .settle s) with link.baudselHigh := high } := by
    simp only [endRestore, newest]
  refine ⟨_, exec_restoreStepEnd high restoring, ?_⟩
  rw [restored]
  refine ⟨rfl, rfl, rfl, rfl, rfl, rfl, rfl, rfl, fun b => Four.get_all true b, rfl, rfl, rfl, rfl, rfl, rfl, rfl, rfl, rfl,
    rfl, rfl, rfl, fun f => ?_, ⟨fun c => ?_, rfl, rfl, rfl, rfl, rfl, rfl, rfl, rfl, rfl, rfl, rfl, rfl, rfl, rfl⟩, rfl⟩
  · cases f <;> rfl
  · cases c <;> rfl

/-- Settles O17: with no valid image the restore step ends blank, and the first commit goes to area 0. -/
theorem blankStart : Obligations.BlankStart := by
  unfold Obligations.BlankStart
  refine ⟨fun a => Four.get_all _ a, fun s high restoring damaged => ?_⟩
  have none_ : newestImage s.store.areas = none := by
    have empty : validImages s.store.areas = [] := List.eq_nil_iff_forall_not_mem.2 fun p hp => by
      obtain ⟨held, sound⟩ := (mem_validImages_iff s.store.areas p.1 p.2).1 hp
      exact damaged p.1 p.2 held sound
    simp only [newestImage, empty, List.find?_nil, List.head?_nil]
  have blank : endRestore high s = { stopped .settle s with link.baudselHigh := high } := by
    simp only [endRestore, none_]
  refine ⟨_, arbitrate (endSettle (endRestore high s)), exec_restoreStepEnd high restoring, ?_⟩
  rw [blank]
  refine ⟨rfl, rfl, rfl, rfl, rfl, rfl, fun k => ⟨Eight.get_all _ k, Eight.get_all _ k, Eight.get_all _ k⟩, rfl, rfl, rfl,
    rfl, rfl, fun a => Four.get_all true a, rfl, rfl, rfl, rfl, rfl, rfl, rfl,
    ⟨fun c => ?_, rfl, rfl, rfl, rfl, rfl, rfl, rfl, rfl, rfl, rfl, rfl, rfl, rfl, rfl⟩, rfl, rfl, ?_⟩
  · cases c <;> rfl
  · exact ⟨_, rfl, rfl, rfl⟩

end Sys2Proof.Machine
end

section
/-! The end of the settle step, and the wake (sections 9.4 and 9.5). -/

namespace Sys2Proof.Machine

set_option Elab.async false

open Sys2Proof Sys2Proof.Safety

/-- A lamp formed with nothing shown before (R94, R99). -/
theorem formLamp_dark (c : LampSettings) (slots : Eight SlotMeters) :
    formLamp c slots lampDark =
      if c.anySlot slots (·.due) then ⟨.steady, 0, true⟩
      else if c.anySlot slots (·.advisory) then ⟨.blink, 0, decide (0 < c.duty * 5)⟩
      else ⟨.dark, 0, false⟩ := by
  simp [formLamp, lampDark, LampSettings.litAt]

theorem formLampsAfresh_of_awake {s : State} (awake : s.awake = true) :
    formLampsAfresh s =
      { s with
        table.lamp1 := formLamp s.config.armed.lamp1 s.table.slots lampDark,
        table.lamp2 := formLamp s.config.armed.lamp2 s.table.slots lampDark } := by
  have awake' : State.awake { s with table.lamp1 := lampDark, table.lamp2 := lampDark } = true := awake
  simp only [formLampsAfresh, formLamps, awake', if_true]

/-- The lines settled (R18), and the engine and the clutch decided from them (R29, R36). -/
def settledTracking (s : State) : State := decideClutch (decideEngine (settleLines s))

/-- The power state decided and the lamps formed (R161, R99). -/
def settledShown (s : State) : State := formLampsAfresh (decidePower (settledTracking s))

theorem exec_settleEnd {s : State} (settling : s.clock.power = .settle) :
    exec .settleEnd s =
      .next (arbitrate (askCommit
        { raise .restored (.index (settledShown s).clock.outcome.code) (settledShown s) with clock.hold := true })) := by
  simp only [exec, execSettleEnd, whenDue, settling, beq_self_eq_true, if_true, settled]
  rfl

/-- The engine state at the end of settle. -/
def settledEngine (s : State) : Engine :=
  if !s.inputs.ign.sample.getD false then .off
  else if s.config.armed.engine.runSpeed ≤ s.inputs.eng.speed then .running
  else if s.inputs.crk.sample.getD false then .cranking else .ready

theorem decideEngine_settleLines (s : State) :
    decideEngine (settleLines s) =
      { settleLines s with
        duty.engine := settledEngine s, duty.confirmTimer := none,
        starts.attempt := if settledEngine s = .cranking then some (newAttempt .crank s) else s.starts.attempt } := by
  unfold decideEngine settledEngine
  have ign : (settleLines s).inputs.ign.level = s.inputs.ign.sample.getD false := rfl
  have crk : (settleLines s).inputs.crk.level = s.inputs.crk.sample.getD false := rfl
  have run : (settleLines s).atRunSpeed = decide (s.config.armed.engine.runSpeed ≤ s.inputs.eng.speed) := rfl
  rw [ign, crk, run]
  by_cases h1 : s.inputs.ign.sample.getD false = true
  · by_cases h2 : s.config.armed.engine.runSpeed ≤ s.inputs.eng.speed
    · simp [h1, h2, settleLines]
    · by_cases h3 : s.inputs.crk.sample.getD false = true
      · simp [h1, h2, h3, settleLines]
        rfl
      · simp [h1, h2, h3, settleLines]
  · simp [h1, settleLines]

/-- The clutch state at the end of settle. -/
def settledClutch (s : State) : Clutch :=
  if settledEngine s = .running then (if s.inputs.clu.sample.getD false then .opened else .slipping) else .idle

theorem settledTracking_eq (s : State) :
    settledTracking s =
      { settleLines s with
        duty :=
          { s.duty with
            engine := settledEngine s, confirmTimer := none, clutch := settledClutch s,
            lockTimer :=
              if settledClutch s = .slipping ∧ s.slip ≤ s.config.armed.clutch.tolerance then some 0 else none },
        starts :=
          { s.starts with
            attempt := if settledEngine s = .cranking then some (newAttempt .crank s) else s.starts.attempt } } := by
  unfold settledTracking settledClutch
  rw [decideEngine_settleLines]
  by_cases running : settledEngine s = .running
  · by_cases pedal : s.inputs.clu.sample.getD false = true
    · simp [decideClutch, clutchLeavesIdle, settleLines, Line.settle, running, pedal]
    · simp [decideClutch, clutchLeavesIdle, clutchToSlipping, State.slipWithin, State.slip, running, settleLines,
        Line.settle, pedal]
  · simp [decideClutch, clutchToIdle, running, settleLines]

theorem settledShown_eq (s : State) :
    settledShown s =
      { settledTracking s with
        clock :=
          { s.clock with
            power := if s.inputs.ign.sample.getD false then .run else .doze,
            doze := if s.inputs.ign.sample.getD false then none else some (s.config.armed.timing.dozeS * 250),
            dozeDue := false },
        table :=
          { s.table with
            lamp1 := formLamp s.config.armed.lamp1 s.table.slots lampDark,
            lamp2 := formLamp s.config.armed.lamp2 s.table.slots lampDark } } := by
  have ign : (settledTracking s).inputs.ign.level = s.inputs.ign.sample.getD false := by
    rw [settledTracking_eq]
    rfl
  have awake : (decidePower (settledTracking s)).awake = true := by
    unfold decidePower
    split <;> rfl
  rw [settledShown, formLampsAfresh_of_awake awake]
  unfold decidePower
  rw [ign, settledTracking_eq]
  by_cases active : s.inputs.ign.sample.getD false = true
  · simp [active, settleLines]
  · simp [active, settleLines, loadDoze]

/-- Settles O18: the state shown at the end of settle, field by field, RESTORED raised and the hold set. -/
theorem settleEndDecides : Obligations.SettleEndDecides := by
  intro s settling
  refine ⟨_, exec_settleEnd settling, ?_⟩
  rw [settledShown_eq, settledTracking_eq]
  refine ⟨rfl, ⟨rfl, rfl⟩, rfl, ?_, rfl, rfl, rfl, rfl, rfl, rfl, rfl⟩
  intro m
  cases m
  · exact formLamp_dark _ _
  · exact formLamp_dark _ _

/-! ## SLEEP and the wake (R14, R159) -/

theorem not_awake_of_sleep {s : State} (asleep : s.clock.power = .sleep) : s.awake = false := by
  simp [State.awake, asleep]

theorem corrected_eq_ite (p : Polarity) (high : Bool) :
    corrected p high = if p = .activeHigh then high else !high := by
  cases p <;> rfl

theorem exec_wakeSource {s : State} (w : WakeSource) (asleep : s.clock.power = .sleep) :
    exec (.wakeSource w) s = .next (takeWakeSource w s) := by
  have still : (takeWakeSource w s).awake = false := by
    cases w with
    | ignPin high => exact not_awake_of_sleep asleep
    | crkPin high => exact not_awake_of_sleep asleep
    | rxStartEdge => exact not_awake_of_sleep asleep
  simp only [exec, execWakeSource, whenDue, asleep, beq_self_eq_true, if_true, settled,
    arbitrate_of_not_awake still]

/-- Settles O19: the source marks the wake, and its completion gives DOZE with the lamps formed afresh. -/
theorem wakeFollowsItsSource : Obligations.WakeFollowsItsSource := by
  intro s high
  refine ⟨fun asleep => ⟨?_, ?_, exec_wakeSource .rxStartEdge asleep⟩, fun w awake => ?_, fun asleep waking => ?_,
    fun still => ?_⟩
  · rw [exec_wakeSource _ asleep, ← corrected_eq_ite]
    rfl
  · rw [exec_wakeSource _ asleep, ← corrected_eq_ite]
    rfl
  · simp [exec, execWakeSource, whenDue, awake]
  · simp only [exec, execWakeComplete, whenDue, asleep, waking, beq_self_eq_true, Bool.and_self, if_true, settled, wake]
    rw [formLampsAfresh_of_awake (by rfl), formLamp_dark, formLamp_dark]
    rfl
  · rcases still with awake | idle
    · simp [exec, execWakeComplete, whenDue, awake]
    · simp [exec, execWakeComplete, whenDue, idle]

end Sys2Proof.Machine
end

section
/-! The engine and the clutch (sections 2.1 and 2.2): what a move of the engine does, and the events that move it. -/

namespace Sys2Proof.Machine

set_option Elab.async false

open Sys2Proof Sys2Proof.Safety

/-! ## Moves of the engine (R24, R31) -/

theorem moveEngine_of_same_turning {e : Engine} {s : State} (same : s.duty.engine.turning = e.turning) :
    moveEngine e s =
      { s with duty.engine := e, duty.confirmTimer := if e = .confirming then some 0 else none } := by
  cases h : e.turning <;> simp [moveEngine, same, h]

theorem clutchLeavesIdle_eq (s : State) :
    clutchLeavesIdle s =
      { s with
        duty.clutch := if s.inputs.clu.level then .opened else .slipping,
        duty.lockTimer :=
          if s.inputs.clu.level = false ∧ s.slip ≤ s.config.armed.clutch.tolerance then some 0 else none } := by
  cases h : s.inputs.clu.level <;> simp [clutchLeavesIdle, clutchToSlipping, State.slipWithin, h]

theorem moveEngine_to_turning {e : Engine} {s : State} (before : s.duty.engine.turning = false)
    (after : e.turning = true) :
    moveEngine e s =
      { s with
        duty.engine := e, duty.confirmTimer := if e = .confirming then some 0 else none,
        duty.clutch := if s.inputs.clu.level then .opened else .slipping,
        duty.lockTimer :=
          if s.inputs.clu.level = false ∧ s.slip ≤ s.config.armed.clutch.tolerance then some 0 else none } := by
  simp only [moveEngine, before, after, Bool.not_false, Bool.and_self, if_true, clutchLeavesIdle_eq]
  rfl

theorem moveEngine_from_turning {e : Engine} {s : State} (before : s.duty.engine.turning = true)
    (after : e.turning = false) :
    moveEngine e s =
      { s with
        duty.engine := e, duty.confirmTimer := none, duty.clutch := .idle, duty.lockTimer := none } := by
  have other : e ≠ .confirming := by
    rintro rfl
    cases after
  simp [moveEngine, before, after, clutchToIdle, other]

theorem turning_iff (e : Engine) : e.turning = true ↔ e = .confirming ∨ e = .running ∨ e = .runDown := by
  cases e <;> simp [Engine.turning]

/-- The state READY, with the clutch in IDLE from a turning state (R31). -/
theorem moveEngine_ready (s : State) :
    moveEngine .ready s =
      { s with
        duty.engine := .ready, duty.confirmTimer := none,
        duty.clutch :=
          if s.duty.engine = .confirming ∨ s.duty.engine = .running ∨ s.duty.engine = .runDown then .idle
          else s.duty.clutch,
        duty.lockTimer :=
          if s.duty.engine = .confirming ∨ s.duty.engine = .running ∨ s.duty.engine = .runDown then none
          else s.duty.lockTimer } := by
  by_cases turns : s.duty.engine.turning = true
  · rw [moveEngine_from_turning turns rfl]
    simp [(turning_iff _).1 turns]
  · rw [moveEngine_of_same_turning (Bool.eq_false_of_not_eq_true turns)]
    simp [mt (turning_iff _).2 turns]

theorem atRunSpeed_iff (s : State) :
    s.atRunSpeed = true ↔ s.config.armed.engine.runSpeed ≤ s.inputs.eng.speed := by
  simp [State.atRunSpeed]

theorem atStallSpeed_iff (s : State) :
    s.atStallSpeed = true ↔ s.config.armed.engine.stallSpeed ≤ s.inputs.eng.speed := by
  simp [State.atStallSpeed]

theorem enterReady_cranks {s : State} (pressed : s.inputs.crk.level = true) :
    enterReady s = startCranking (moveEngine .ready s) := by
  simp [enterReady, pressed]

theorem enterReady_pushed {s : State} (released : s.inputs.crk.level = false)
    (fast : s.config.armed.engine.runSpeed ≤ s.inputs.eng.speed) :
    enterReady s = startPushed (moveEngine .ready s) := by
  simp [enterReady, released, State.atRunSpeed, fast]

theorem enterReady_rests {s : State} (released : s.inputs.crk.level = false)
    (slow : s.inputs.eng.speed < s.config.armed.engine.runSpeed) : enterReady s = moveEngine .ready s := by
  simp [enterReady, released, State.atRunSpeed, Nat.not_le.2 slow]

theorem startCranking_eq {s : State} (still : s.duty.engine.turning = false) :
    startCranking s =
      { s with
        duty.engine := .cranking, duty.confirmTimer := none, starts.attempt := some (newAttempt .crank s) } := by
  rw [startCranking, moveEngine_of_same_turning (by rw [still]; rfl)]
  rfl

theorem startPushed_eq {s : State} (still : s.duty.engine.turning = false) :
    startPushed s =
      { s with
        duty.engine := .confirming, duty.confirmTimer := some 0,
        duty.clutch := if s.inputs.clu.level then .opened else .slipping,
        duty.lockTimer :=
          if s.inputs.clu.level = false ∧ s.slip ≤ s.config.armed.clutch.tolerance then some 0 else none,
        starts.attempt := some (newAttempt .push s) } := by
  rw [startPushed, moveEngine_to_turning still rfl]
  rfl

/-- Settles O24: the engine's answer to a speed, by its state; and the entry to READY with its test. -/
theorem engineFollowsItsSpeed : Obligations.EngineFollowsItsSpeed := by
  refine ⟨fun s => ⟨fun ready fast released => ?_, fun confirming slow => ?_, fun running slow => ?_,
    fun runDown slow => ?_, fun none => ?_⟩, fun s => ⟨fun pressed => ?_, fun released fast => ?_,
    fun released slow => ?_⟩⟩
  · have still : s.duty.engine.turning = false := by rw [ready]; rfl
    simp only [engineSpeed, ready, released, State.atRunSpeed, fast, decide_true, Bool.not_false, Bool.and_self,
      if_true, startPushed_eq still]
  · simp [engineSpeed, confirming, State.atRunSpeed, Nat.not_le.2 slow]
  · simp only [engineSpeed, running, State.atStallSpeed, Nat.not_le.2 slow, decide_false, Bool.false_eq_true, if_false,
      engineStall]
    simp [State.count, onMeters, satAdd, top32]
  · have turns : s.duty.engine.turning = true := by rw [runDown]; rfl
    simp only [engineSpeed, runDown, State.atStallSpeed, Nat.not_le.2 slow, decide_false, Bool.false_eq_true, if_false,
      moveEngine_from_turning turns (e := .off) rfl]
  · rcases none with off | cranking | ⟨ready, slow | pressed⟩ | ⟨confirming, fast⟩ | ⟨running | runDown, fast⟩
    · simp [engineSpeed, off]
    · simp [engineSpeed, cranking]
    · simp [engineSpeed, ready, State.atRunSpeed, Nat.not_le.2 slow]
    · simp [engineSpeed, ready, pressed]
    · simp [engineSpeed, confirming, State.atRunSpeed, fast]
    · simp [engineSpeed, running, State.atStallSpeed, fast]
    · simp [engineSpeed, runDown, State.atStallSpeed, fast]
  · rw [enterReady_cranks pressed, startCranking_eq (by simp [moveEngine_ready, Engine.turning]), moveEngine_ready]
    rfl
  · rw [enterReady_pushed released fast, startPushed_eq (by simp [moveEngine_ready, Engine.turning]), moveEngine_ready]
    rfl
  · rw [enterReady_rests released slow, moveEngine_ready]

end Sys2Proof.Machine
end

section
/-! The switch lines (section 1.2): their samples, and what a change of each does. -/

namespace Sys2Proof.Machine

set_option Elab.async false

open Sys2Proof Sys2Proof.Safety

/-! ## Changes of a level (R12) -/

/-- The state with a line's level changed, its count cleared. -/
def withLevelChanged (l : SwitchLine) (s : State) : State :=
  { s with
    inputs := s.inputs.setLine l
      { s.inputs.line l with level := !(s.inputs.line l).level, count := 0, changeDue := false } }

theorem exec_lineLevelChange {l : SwitchLine} {s : State} (hireFirst : Bool) (awake : s.awake = true)
    (due : (s.inputs.line l).changeDue = true) :
    exec (.lineLevelChange l hireFirst) s =
      .next (arbitrate (levelReaches l (!(s.inputs.line l).level) hireFirst (withLevelChanged l s))) := by
  simp only [exec, execLineLevelChange, whenDue, levelChangeDue, takeLevelChange, due, awake, Bool.and_self, if_true,
    settled]
  rfl

/-! ## The clutch (section 2.2) -/

theorem clutchSpeed_slipping {s : State} (slipping : s.duty.clutch = .slipping) :
    clutchSpeed s =
      { s with
        duty.lockTimer :=
          if s.slip ≤ s.config.armed.clutch.tolerance then some (s.duty.lockTimer.getD 0) else none } := by
  simp [clutchSpeed, slipping, State.slipWithin]

theorem clutchSpeed_loses_lock {s : State} (locked : s.duty.clutch = .locked)
    (slips : s.config.armed.clutch.tolerance < s.slip) :
    clutchSpeed s =
      { s with
        duty.clutch := .slipping, duty.lockTimer := none,
        duty.meters.lockLosses := min (s.duty.meters.lockLosses + 1) 4294967295 } := by
  simp [clutchSpeed, locked, State.slipWithin, Nat.not_le.2 slips, onMeters, satAdd, top32]

theorem clutchSpeed_keeps_lock {s : State} (locked : s.duty.clutch = .locked)
    (holds : s.slip ≤ s.config.armed.clutch.tolerance) : clutchSpeed s = s := by
  simp [clutchSpeed, locked, State.slipWithin, holds]

theorem clutchPedal_opens {s : State} (closed : s.duty.clutch = .slipping ∨ s.duty.clutch = .locked) :
    clutchPedal true s = { s with duty.clutch := .opened, duty.lockTimer := none } := by
  rcases closed with slipping | locked
  · simp [clutchPedal, slipping]
  · simp [clutchPedal, locked]

/-- Settles O25: a speed and the pedal reach the clutch by its state; a change of RVS reaches no block. -/
theorem clutchFollowsSlipAndPedal : Obligations.ClutchFollowsSlipAndPedal := by
  refine ⟨fun s => ⟨fun slipping within => ?_, fun slipping slips => ?_, clutchSpeed_loses_lock, ?_⟩,
    fun s hireFirst awake => ⟨fun due released closed => ?_, fun due pressed opened => ?_, fun due idle => ?_,
    fun due => ?_⟩⟩
  · rw [clutchSpeed_slipping slipping, if_pos within]
  · rw [clutchSpeed_slipping slipping, if_neg (Nat.not_le.2 slips)]
  · rintro (⟨locked, holds⟩ | idle | opened)
    · exact clutchSpeed_keeps_lock locked holds
    · simp [clutchSpeed, idle]
    · simp [clutchSpeed, opened]
  · rw [exec_lineLevelChange (l := .clu) hireFirst awake due]
    have level : (s.inputs.line .clu).level = false := released
    rw [level, withLevelChanged, level]
    exact congrArg (fun t => Host.Outcome.next (arbitrate t)) (clutchPedal_opens closed)
  · have level : (s.inputs.line .clu).level = true := pressed
    refine ⟨_, exec_lineLevelChange (l := .clu) hireFirst awake due, ?_⟩
    simp only [levelReaches, level, Bool.not_true, clutchPedal, withLevelChanged, opened, arbitrate_frame]
    simp [clutchToSlipping, State.slipWithin, State.slip, State.count, onMeters, satAdd, top32, Inputs.setLine]
    exact if_congr decide_eq_true_iff rfl rfl
  · rw [exec_lineLevelChange (l := .clu) hireFirst awake due]
    simp [levelReaches, clutchPedal, withLevelChanged, idle]
    rfl
  · rw [exec_lineLevelChange (l := .rvs) hireFirst awake due]
    rfl

/-! ## Samples (R11, R12, R18) -/

theorem sensing_of_settle {s : State} (settling : s.clock.power = .settle) : s.sensing = true := by
  simp [State.sensing, settling]

theorem not_awake_of_settle {s : State} (settling : s.clock.power = .settle) : s.awake = false := by
  simp [State.awake, settling]

theorem sampleAwake_of_not_due {l : SwitchLine} {s : State} (high : Bool) (quiet : (s.inputs.line l).changeDue = false) :
    sampleAwake l high s =
      { s with inputs := s.inputs.setLine l (debounce (s.config.armed.line l) high (s.inputs.line l)) } := by
  simp only [sampleAwake, takeLevelChange, quiet, Bool.false_and, Bool.false_eq_true, if_false]

/-- Settles O26: one sample, by the power state. -/
theorem linesAreSampled : Obligations.LinesAreSampled := by
  intro s l high
  simp only [← corrected_eq_ite]
  refine ⟨fun awake quiet same => ?_, fun awake quiet differs => ?_, fun settling => ?_, fun deaf => ?_⟩
  · simp only [exec, execSwitchLineSample, awake, if_true, settled, sampleAwake_of_not_due high quiet, debounce, same]
  · simp only [exec, execSwitchLineSample, awake, if_true, settled, sampleAwake_of_not_due high quiet, debounce, differs,
      if_false]
  · have asleep := not_awake_of_settle settling
    simp only [exec, execSwitchLineSample, asleep, Bool.false_eq_true, if_false, whenDue, sensing_of_settle settling,
      if_true, settled]
    rw [arbitrate_of_not_awake (by exact asleep)]
    rfl
  · have asleep : s.awake = false := by
      simp only [State.sensing, Bool.or_eq_false_iff] at deaf
      exact deaf.1
    simp [exec, execSwitchLineSample, asleep, whenDue, deaf]

end Sys2Proof.Machine
end

section
/-! Changes of IGN and CRK (sections 2.1, 6.4 and 9.2). -/

namespace Sys2Proof.Machine

set_option Elab.async false

open Sys2Proof Sys2Proof.Safety

/-! ## What an attempt captures (R47) -/

theorem newAttempt_of_same {s u : State} (kind : AttemptKind) (time : u.clock.time = s.clock.time)
    (coolant : u.duty.coolant = s.duty.coolant) (fresh : u.duty.fresh = s.duty.fresh)
    (load : u.duty.load = s.duty.load) (config : u.config = s.config) (hire : u.hires.current = s.hires.current) :
    newAttempt kind u = newAttempt kind s := by
  simp only [newAttempt, State.conditions, State.hireNumber, time, coolant, fresh, load, config, hire]

/-! ## The hire that a change of IGN finds open (R112) -/

/-- What the auto-close looks at of an open hire. -/
def hireHeader (s : State) : Option (Nat × HireClass) := s.hires.current.map fun h => (h.number, h.cls)

theorem creditTarget_header (ws : Eight Nat) (h : Hires) :
    ((creditTarget ws h).current.map fun r => (r.number, r.cls)) = h.current.map fun r => (r.number, r.cls) := by
  unfold creditTarget
  split
  · next none => simp
  · next r open' =>
    split
    · simp [open']
    · simp [open']

theorem charge_current (raws : Eight (Option Nat)) (s : State) :
    (charge raws s).hires = creditTarget (deliveredAll raws s.table.slots) s.hires := by
  simp [charge]

theorem count_header (f : HireCounters → HireCounters) (s : State) : hireHeader (s.count f) = hireHeader s := by
  cases h : s.hires.current <;> simp [hireHeader, State.count, h]

theorem charge_header (raws : Eight (Option Nat)) (s : State) : hireHeader (charge raws s) = hireHeader s := by
  rw [hireHeader, charge_current]
  exact creditTarget_header _ _

theorem logStart_hires (a : Attempt) (c : AttemptClass) (s : State) : (logStart a c s).hires = s.hires := by
  unfold logStart
  split
  · rfl
  · rfl

theorem closeAttempt_header (c : AttemptClass) (s : State) : hireHeader (closeAttempt c s) = hireHeader s := by
  unfold closeAttempt
  split
  · rfl
  · next a h =>
    have logged : ∀ u : State, hireHeader (logStart a c u) = hireHeader u := fun u => by
      rw [hireHeader, logStart_hires]
      rfl
    exact (logged _).trans ((charge_header _ _).trans (count_header _ _))

theorem moveEngine_header (e : Engine) (s : State) : hireHeader (moveEngine e s) = hireHeader s := by
  simp [hireHeader]

theorem ignitionCut_header (s : State) : hireHeader (ignitionCut s) = hireHeader s := moveEngine_header _ _

/-- The engine's answer to IGN inactive leaves the open hire its number and class. -/
theorem engineIgnition_off_header (s : State) : hireHeader (engineIgnition false s) = hireHeader s := by
  cases h : s.duty.engine with
  | off => simp [engineIgnition, h]
  | ready => simpa [engineIgnition, h] using moveEngine_header _ _
  | cranking => simp only [engineIgnition, h, ignitionCut_header, closeAttempt_header]
  | confirming => simp only [engineIgnition, h, ignitionCut_header, closeAttempt_header]
  | running => simp only [engineIgnition, h, moveEngine_header, closeAttempt_header]
  | runDown => simp [engineIgnition, h]

theorem autoClose_eq (s : State) :
    autoClose s =
      match hireHeader s with
      | none => s
      | some h =>
        if s.config.armed.policy.closes h.2 then
          askCommit (raise .hireAutoClosed (.hire (some h.1)) (closeOpenHire .ignitionOff s))
        else s := by
  cases h : s.hires.current <;> simp [autoClose, hireHeader, h]

/-! ## A commit asked for with no sleep pending -/

theorem sleepTest_of_none {s : State} (none' : s.clock.sleep = none) : sleepTest s = s := by
  simp [sleepTest, none']

/-- With no sleep pending, an ask for a commit reaches no input, no power state and no lamp. -/
theorem askCommit_of_awake {s : State} (none' : s.clock.sleep = none) :
    (askCommit s).inputs = s.inputs ∧ (askCommit s).duty = s.duty ∧ (askCommit s).clock.power = s.clock.power := by
  unfold askCommit
  split
  · unfold beginCommit
    split
    · exact ⟨rfl, rfl, rfl⟩
    · rw [sleepTest_of_none]
      · simp
      · simp [completionReaches, releaseReplies, none']
  · exact ⟨rfl, rfl, rfl⟩
  · exact ⟨rfl, rfl, rfl⟩

theorem autoClose_of_awake {s : State} (none' : s.clock.sleep = none) :
    (autoClose s).inputs = s.inputs ∧ (autoClose s).duty = s.duty ∧ (autoClose s).config = s.config := by
  unfold autoClose
  split
  · exact ⟨rfl, rfl, rfl⟩
  · split
    · obtain ⟨inputs, duty, -⟩ := askCommit_of_awake
        (s := raise .hireAutoClosed (.hire (some _)) (closeOpenHire .ignitionOff s)) (by simpa using none')
      exact ⟨inputs.trans (by simp), duty.trans (by simp), by simp⟩
    · exact ⟨rfl, rfl, rfl⟩

/-! ## IGN (R21 to R27, R112, R154) -/

theorem cancelSleep_sleep (s : State) : (cancelSleep s).clock.sleep = none := by
  unfold cancelSleep
  split
  · simp
  · next h => simpa using h

theorem ignitionCut_cranking {u : State} (cranking : u.duty.engine = .cranking) :
    ignitionCut u =
      if u.config.armed.engine.stallSpeed ≤ u.inputs.eng.speed then
        { u with
          duty.engine := .runDown, duty.confirmTimer := none,
          duty.clutch := if u.inputs.clu.level then .opened else .slipping,
          duty.lockTimer :=
            if u.inputs.clu.level = false ∧ u.slip ≤ u.config.armed.clutch.tolerance then some 0 else none }
      else { u with duty.engine := .off, duty.confirmTimer := none } := by
  have still : u.duty.engine.turning = false := by rw [cranking]; rfl
  by_cases fast : u.config.armed.engine.stallSpeed ≤ u.inputs.eng.speed
  · simp only [ignitionCut, State.atStallSpeed, fast, decide_true, if_true]
    exact moveEngine_to_turning still rfl
  · simp only [ignitionCut, State.atStallSpeed, fast, decide_false, Bool.false_eq_true, if_false]
    exact moveEngine_of_same_turning still

theorem ignitionCut_confirming {u : State} (confirming : u.duty.engine = .confirming) :
    ignitionCut u =
      if u.config.armed.engine.stallSpeed ≤ u.inputs.eng.speed then
        { u with duty.engine := .runDown, duty.confirmTimer := none }
      else
        { u with duty.engine := .off, duty.confirmTimer := none, duty.clutch := .idle, duty.lockTimer := none } := by
  have turns : u.duty.engine.turning = true := by rw [confirming]; rfl
  by_cases fast : u.config.armed.engine.stallSpeed ≤ u.inputs.eng.speed
  · simp only [ignitionCut, State.atStallSpeed, fast, decide_true, if_true]
    exact moveEngine_of_same_turning turns
  · simp only [ignitionCut, State.atStallSpeed, fast, decide_false, Bool.false_eq_true, if_false]
    exact moveEngine_from_turning turns rfl

/-- The engine's answer to IGN inactive, by its state. -/
theorem engineIgnition_off (u : State) :
    engineIgnition false u =
      match u.duty.engine with
      | .off | .runDown => u
      | .ready => { u with duty.engine := .off, duty.confirmTimer := none }
      | .cranking => ignitionCut (closeAttempt .failed u)
      | .confirming => ignitionCut (closeAttempt .failed u)
      | .running => { closeAttempt .reEngage u with duty.engine := .runDown, duty.confirmTimer := none } := by
  cases h : u.duty.engine with
  | off => simp [engineIgnition, h]
  | runDown => simp [engineIgnition, h]
  | cranking => simp [engineIgnition, h]
  | confirming => simp [engineIgnition, h]
  | ready =>
    simp only [engineIgnition, h]
    exact moveEngine_of_same_turning (by rw [h]; rfl)
  | running =>
    simp only [engineIgnition, h]
    exact moveEngine_of_same_turning (by rw [(closeAttempt_frame _ _).2.1, h]; rfl)

/-- The engine's answer to IGN active from RUN_DOWN at or above the stall speed (R27). -/
theorem engineIgnition_runsOn {u : State} (runDown : u.duty.engine = .runDown)
    (fast : u.config.armed.engine.stallSpeed ≤ u.inputs.eng.speed) :
    engineIgnition true u =
      { u with
        duty.engine := .running, duty.confirmTimer := none,
        starts.attempt := if u.inputs.crk.level then some (newAttempt .reEngage u) else u.starts.attempt } := by
  have moved : moveEngine .running u = { u with duty.engine := .running, duty.confirmTimer := none } :=
    moveEngine_of_same_turning (by rw [runDown]; rfl)
  cases pressed : u.inputs.crk.level
  · simp [engineIgnition, runDown, State.atStallSpeed, fast, moved, pressed]
  · simp only [engineIgnition, runDown, State.atStallSpeed, fast, decide_true, if_true, moved, pressed, openAttempt]
    rfl

/-- The engine's answer to IGN inactive, by the readings of another state: O27's words. -/
def ignitionOffBy (s u : State) : State :=
  match s.duty.engine with
  | .off | .runDown => u
  | .ready => ({ u with duty.engine := .off, duty.confirmTimer := none } : State)
  | .cranking =>
    let c := closeAttempt .failed u
    if s.config.armed.engine.stallSpeed ≤ s.inputs.eng.speed then
      { c with
        duty.engine := .runDown, duty.confirmTimer := none,
        duty.clutch := if s.inputs.clu.level then .opened else .slipping,
        duty.lockTimer :=
          if s.inputs.clu.level = false ∧ s.slip ≤ s.config.armed.clutch.tolerance then some 0 else none }
    else { c with duty.engine := .off, duty.confirmTimer := none }
  | .confirming =>
    let c := closeAttempt .failed u
    if s.config.armed.engine.stallSpeed ≤ s.inputs.eng.speed then
      { c with duty.engine := .runDown, duty.confirmTimer := none }
    else { c with duty.engine := .off, duty.confirmTimer := none, duty.clutch := .idle, duty.lockTimer := none }
  | .running => { closeAttempt .reEngage u with duty.engine := .runDown, duty.confirmTimer := none }

theorem engineIgnition_off_by {s u : State} (duty : u.duty = s.duty) (config : u.config = s.config)
    (eng : u.inputs.eng = s.inputs.eng) (inp : u.inputs.inp = s.inputs.inp) (clu : u.inputs.clu = s.inputs.clu) :
    engineIgnition false u = ignitionOffBy s u := by
  have slip : (closeAttempt .failed u).slip = s.slip := by simp [State.slip, eng, inp]
  rw [engineIgnition_off, ignitionOffBy, duty]
  cases h : s.duty.engine with
  | off => rfl
  | runDown => rfl
  | ready => rfl
  | running => rfl
  | cranking =>
    simp only
    rw [ignitionCut_cranking (by simpa [duty] using h), slip]
    simp only [closeAttempt_frame, config, eng, clu]
  | confirming =>
    simp only
    rw [ignitionCut_confirming (by simpa [duty] using h)]
    simp only [closeAttempt_frame, config, eng]

/-- What IGN inactive does to the open hire of a state, by its number and class (R112). -/
theorem autoClose_by {s u : State} (config : u.config = s.config) (same : hireHeader u = hireHeader s) :
    autoClose u =
      match s.hires.current with
      | none => u
      | some h =>
        if s.config.armed.policy.closes h.cls then
          askCommit (raise .hireAutoClosed (.hire (some h.number)) (closeOpenHire .ignitionOff u))
        else u := by
  rw [autoClose_eq, same, config]
  cases h : s.hires.current <;> simp [hireHeader, h]

theorem engineIgnition_enters {u : State}
    (enters : u.duty.engine = .off ∨
      u.duty.engine = .runDown ∧ ¬ u.config.armed.engine.stallSpeed ≤ u.inputs.eng.speed) :
    engineIgnition true u = enterReady u := by
  rcases enters with off | ⟨runDown, slow⟩
  · simp [engineIgnition, off]
  · simp [engineIgnition, runDown, State.atStallSpeed, slow]

theorem engineIgnition_stays {u : State} (notOff : u.duty.engine ≠ .off) (notRunDown : u.duty.engine ≠ .runDown) :
    engineIgnition true u = u := by
  cases engine : u.duty.engine with
  | off => exact absurd engine notOff
  | runDown => exact absurd engine notRunDown
  | ready => simp [engineIgnition, engine]
  | cranking => simp [engineIgnition, engine]
  | confirming => simp [engineIgnition, engine]
  | running => simp [engineIgnition, engine]

/-- The debounced level of IGN set, its count cleared. -/
def withIgn (active : Bool) (s : State) : State :=
  { s with inputs.ign := { s.inputs.ign with level := active, count := 0, changeDue := false } }

theorem exec_ignitionChange {s : State} {active : Bool} (hireFirst : Bool) (awake : s.awake = true)
    (due : s.inputs.ign.changeDue = true) (was : s.inputs.ign.level = !active) :
    exec (.lineLevelChange .ign hireFirst) s =
      .next (arbitrate (ignitionChanged active hireFirst (withIgn active s))) := by
  have level : (s.inputs.line .ign).level = !active := was
  rw [exec_lineLevelChange (l := .ign) hireFirst awake due, withLevelChanged, level, Bool.not_not]
  rfl

/-- The state after power control has taken a change of IGN, before the engine and the hire do (R154). -/
def poweredBy (active : Bool) (s : State) : State := powerIgnition active (withIgn active s)

theorem poweredBy_frame (active : Bool) (s : State) :
    (poweredBy active s).duty = s.duty ∧ (poweredBy active s).config = s.config ∧
      (poweredBy active s).inputs = (withIgn active s).inputs ∧ (poweredBy active s).hires = s.hires ∧
      (poweredBy active s).starts = s.starts ∧ (poweredBy active s).clock.time = s.clock.time ∧
      (poweredBy active s).clock.sleep = none := by
  cases active <;> simp [poweredBy, powerIgnition, withIgn, cancelSleep_sleep]

theorem loadDoze_by {u : State} {c : Configuration} (config : u.config = c) :
    loadDoze u = { u with clock.doze := some (c.armed.timing.dozeS * 250), clock.dozeDue := false } := by
  subst config
  rfl

theorem poweredBy_false (s : State) :
    poweredBy false s =
      { cancelSleep (withIgn false s) with
        clock.power := .doze, clock.doze := some (s.config.armed.timing.dozeS * 250), clock.dozeDue := false } := by
  have config : (cancelSleep (withIgn false s)).config = s.config := by simp [withIgn]
  exact loadDoze_by (u := { cancelSleep (withIgn false s) with clock.power := .doze }) config

theorem ignitionOff_powered (hireFirst : Bool) (s : State) :
    ignitionOff hireFirst (poweredBy false s) =
      if hireFirst then ignitionOffBy s (autoClose (poweredBy false s))
      else autoClose (ignitionOffBy s (poweredBy false s)) := by
  obtain ⟨duty, config, inputs, -, -, -, calm⟩ := poweredBy_frame false s
  obtain ⟨inputs', duty', config'⟩ := autoClose_of_awake calm
  cases hireFirst
  · simp only [ignitionOff, Bool.false_eq_true, if_false]
    rw [engineIgnition_off_by duty config (by rw [inputs]; rfl) (by rw [inputs]; rfl) (by rw [inputs]; rfl)]
  · simp only [ignitionOff, if_true]
    rw [engineIgnition_off_by (duty'.trans duty) (config'.trans config) (by rw [inputs', inputs]; rfl)
      (by rw [inputs', inputs]; rfl) (by rw [inputs', inputs]; rfl)]

/-- Settles O27: IGN active and IGN inactive, by the engine's state. -/
theorem ignitionChanges : Obligations.IgnitionChanges := by
  refine ⟨fun s hireFirst awake due low => ?_, fun s hireFirst awake due high => ?_⟩
  · obtain ⟨duty, config, inputs, hires, starts, time, -⟩ := poweredBy_frame true s
    have lit (t : State) (h : engineIgnition true (poweredBy true s) = t) :
        exec (.lineLevelChange .ign hireFirst) s = .next (arbitrate (startLampCheck t)) := by
      rw [exec_ignitionChange (active := true) hireFirst awake due low, ← h]
      rfl
    refine ⟨fun enters => lit _ (engineIgnition_enters ?_), fun runDown fast => lit _ ?_, fun notOff notRunDown =>
      lit _ (engineIgnition_stays (by rwa [duty]) (by rwa [duty]))⟩
    · rw [duty, config, inputs]
      exact enters
    · have attempt :
          (if (poweredBy true s).inputs.crk.level then some (newAttempt .reEngage (poweredBy true s))
            else (poweredBy true s).starts.attempt) =
            if s.inputs.crk.level then some (newAttempt .reEngage s) else s.starts.attempt := by
        rw [newAttempt_of_same (s := s) _ time (by rw [duty]) (by rw [duty]) (by rw [duty]) config (by rw [hires]),
          starts, inputs]
        rfl
      rw [engineIgnition_runsOn (by rwa [duty]) (by rw [config, inputs]; exact fast), attempt]
      rfl
  · obtain ⟨duty, config, inputs, hires, -⟩ := poweredBy_frame false s
    have header : hireHeader (poweredBy false s) = hireHeader s := by rw [hireHeader, hires, hireHeader]
    have off : engineIgnition false (poweredBy false s) = ignitionOffBy s (poweredBy false s) :=
      engineIgnition_off_by duty config (by rw [inputs]; rfl) (by rw [inputs]; rfl) (by rw [inputs]; rfl)
    refine (exec_ignitionChange (active := false) hireFirst awake due high).trans (congrArg (fun t => Host.Outcome.next (arbitrate t)) ?_)
    refine (ignitionOff_powered hireFirst s).trans ?_
    rw [autoClose_by config header, autoClose_by (s := s)
      (by rw [← off, (engineIgnition_frame _ _).2.1, config])
      (by rw [← off, engineIgnition_off_header, header])]
    rw [poweredBy_false]
    rfl

/-! ## CRK (R20 to R27, R48, R51, R155) -/

/-- The state after power control has taken a change of CRK. -/
def crankPowered (s : State) : State :=
  { cancelSleep (withLevelChanged .crk s) with
    clock.doze :=
      if s.clock.power = .doze then some (s.config.armed.timing.dozeS * 250)
      else (cancelSleep (withLevelChanged .crk s)).clock.doze,
    clock.dozeDue :=
      if s.clock.power = .doze then false else (cancelSleep (withLevelChanged .crk s)).clock.dozeDue }

theorem crankPowered_frame (s : State) :
    (crankPowered s).duty = s.duty ∧ (crankPowered s).config = s.config ∧
      (crankPowered s).inputs =
        { s.inputs with crk := { s.inputs.crk with level := !s.inputs.crk.level, count := 0, changeDue := false } } ∧
      (crankPowered s).hires = s.hires ∧ (crankPowered s).starts = s.starts ∧
      (crankPowered s).clock.time = s.clock.time := by
  simp [crankPowered, withLevelChanged, Inputs.setLine, Inputs.line]

theorem powerCrank_changed (s : State) : powerCrank (withLevelChanged .crk s) = crankPowered s := by
  have power : (cancelSleep (withLevelChanged .crk s)).clock.power = s.clock.power := by simp [withLevelChanged]
  have config : (cancelSleep (withLevelChanged .crk s)).config = s.config := by simp [withLevelChanged]
  unfold powerCrank reloadDoze crankPowered
  rw [power]
  by_cases dozing : s.clock.power = .doze
  · rw [if_pos dozing, if_pos dozing, if_pos dozing, loadDoze_by config]
  · rw [if_neg dozing, if_neg dozing, if_neg dozing]

/-- The engine's answer to a change of CRK, by the readings of the state before it: O28's words. -/
def crankBy (s base : State) (active : Bool) : State :=
  match s.duty.engine, active with
  | .ready, true =>
    { base with
      duty.engine := .cranking, duty.confirmTimer := none, starts.attempt := some (newAttempt .crank s) }
  | .confirming, true =>
    { base with
      duty.engine := .cranking, duty.confirmTimer := none, duty.clutch := .idle, duty.lockTimer := none,
      starts.attempt := s.starts.attempt.map fun a =>
        { a with kind := if a.kind = .push then .crank else a.kind, crankRunning := true } }
  | .running, true => { base with starts.attempt := some (newAttempt .reEngage s) }
  | .cranking, false =>
    if s.config.armed.engine.runSpeed ≤ s.inputs.eng.speed then
      { base with
        duty.engine := .confirming, duty.confirmTimer := some 0,
        duty.clutch := if s.inputs.clu.level then .opened else .slipping,
        duty.lockTimer :=
          if s.inputs.clu.level = false ∧ s.slip ≤ s.config.armed.clutch.tolerance then some 0 else none,
        starts.attempt := s.starts.attempt.map fun a => { a with crankRunning := false } }
    else { closeAttempt .failed base with duty.engine := .ready, duty.confirmTimer := none }
  | .running, false => closeAttempt .reEngage base
  | _, _ => base

theorem engineCrank_pressed (s : State) : engineCrank true (crankPowered s) = crankBy s (crankPowered s) true := by
  obtain ⟨duty, config, -, hires, starts, time⟩ := crankPowered_frame s
  have attempt (kind : AttemptKind) : newAttempt kind (crankPowered s) = newAttempt kind s :=
    newAttempt_of_same _ time (by rw [duty]) (by rw [duty]) (by rw [duty]) config (by rw [hires])
  cases engine : s.duty.engine with
  | off => simp only [engineCrank, crankBy, duty, engine]
  | runDown => simp only [engineCrank, crankBy, duty, engine]
  | cranking => simp only [engineCrank, crankBy, duty, engine]
  | ready =>
    simp only [engineCrank, crankBy, duty, engine]
    rw [startCranking_eq (by rw [duty, engine]; rfl), attempt]
    simp only [duty]
  | running =>
    simp only [engineCrank, crankBy, duty, engine, openAttempt]
    rw [attempt]
  | confirming =>
    simp only [engineCrank, crankBy, duty, engine, resumeCrank]
    rw [moveEngine_from_turning (by rw [duty, engine]; rfl) rfl, ← starts]
    simp only [duty]

theorem engineCrank_released {s : State} (pressed : s.inputs.crk.level = true) :
    engineCrank false (crankPowered s) = crankBy s (crankPowered s) false := by
  obtain ⟨duty, config, inputs, -, starts, -⟩ := crankPowered_frame s
  have slip (u : State) (same : u.inputs = (crankPowered s).inputs) : u.slip = s.slip := by
    simp [State.slip, same, inputs]
  have run : (crankPowered s).atRunSpeed = decide (s.config.armed.engine.runSpeed ≤ s.inputs.eng.speed) := by
    simp [State.atRunSpeed, config, inputs]
  cases engine : s.duty.engine with
  | off => simp only [engineCrank, crankBy, duty, engine]
  | runDown => simp only [engineCrank, crankBy, duty, engine]
  | ready => simp only [engineCrank, crankBy, duty, engine]
  | confirming => simp only [engineCrank, crankBy, duty, engine]
  | running => simp only [engineCrank, crankBy, duty, engine]
  | cranking =>
    simp only [engineCrank, crankBy, duty, engine, run]
    by_cases fast : s.config.armed.engine.runSpeed ≤ s.inputs.eng.speed
    · rw [if_pos (decide_eq_true fast), if_pos fast,
        moveEngine_to_turning (by simp [duty, engine, Engine.turning]) rfl, slip _ (by simp), ← starts]
      simp only [stopCrank, config, inputs, duty, if_true]
    · rw [if_neg (by simpa using fast), if_neg fast,
        enterReady_rests (by simp [inputs, pressed]) (by simpa [config, inputs] using fast),
        moveEngine_of_same_turning (by simp [duty, engine, Engine.turning])]
      rfl

/-- Settles O28: the engine's answer to CRK, by its state. -/
theorem starterChanges : Obligations.StarterChanges := by
  intro s hireFirst awake due
  refine (exec_lineLevelChange (l := .crk) hireFirst awake due).trans
    (congrArg (fun t => Host.Outcome.next (arbitrate t)) ?_)
  show engineCrank (!s.inputs.crk.level) (powerCrank (withLevelChanged .crk s)) =
    crankBy s (crankPowered s) (!s.inputs.crk.level)
  rw [powerCrank_changed]
  cases pressed : s.inputs.crk.level with
  | false => exact engineCrank_pressed s
  | true => exact engineCrank_released pressed

end Sys2Proof.Machine
end

section
/-! The expiries: doze, confirm, lock, freshness (sections 2, 3 and 9.2), and the close of an attempt. -/

namespace Sys2Proof.Machine

set_option Elab.async false

open Sys2Proof Sys2Proof.Safety

theorem exec_dozeTimerExpiry {s : State} (due : s.clock.dozeDue = true) :
    exec .dozeTimerExpiry s = .next (arbitrate (takeDozeExpiry s)) := by
  simp [exec, execDozeTimerExpiry, whenDue, due, settled]

theorem takeDozeExpiry_sleepless {s : State} (due : s.clock.dozeDue = true) (ready : s.sleepConditions = true)
    (none' : s.clock.sleep = none) :
    takeDozeExpiry s =
      askCommit
        { s with
          clock.dozeDue := false, clock.sleep := some ⟨.dozeExpiry, .commit s.boundNow, true, true⟩ } := by
  simp only [takeDozeExpiry, due, if_true, ready, none']

theorem takeDozeExpiry_pending {s : State} {p : SleepPending} (due : s.clock.dozeDue = true)
    (ready : s.sleepConditions = true) (pending : s.clock.sleep = some p) :
    takeDozeExpiry s = { s with clock.dozeDue := false, clock.sleep := some { p with timerHeld := true } } := by
  simp only [takeDozeExpiry, due, if_true, ready, pending]

theorem takeDozeExpiry_reloads {s : State} (due : s.clock.dozeDue = true) (unready : s.sleepConditions = false) :
    takeDozeExpiry s =
      { s with
        clock.dozeDue := false,
        clock.doze := if s.clock.power = .doze then some (s.config.armed.timing.dozeS * 250) else s.clock.doze } := by
  simp only [takeDozeExpiry, due, if_true, unready, Bool.false_eq_true, if_false, reloadDoze]
  split
  · rfl
  · rfl

theorem afterReply_cancelled (a : AfterReply) :
    a.cancelled = if a = .sleepLive ∨ a = .sleepReplaced then .sleepCancelled else a := by
  cases a <;> rfl

theorem cancelSleep_of_none {s : State} (none' : s.clock.sleep = none) : cancelSleep s = s := by
  simp [cancelSleep, none']

/-- The cancellation of a sleep pending, as a whole next state (R157). -/
theorem cancelSleep_of_some {s : State} (pending : s.clock.sleep ≠ none) :
    cancelSleep s =
      { s with
        clock.sleep := none,
        clock.doze := if s.clock.power = .doze then some (s.config.armed.timing.dozeS * 250) else s.clock.doze,
        clock.dozeDue := if s.clock.power = .doze then false else s.clock.dozeDue,
        link := s.link.mapAfter AfterReply.cancelled } := by
  have some' : s.clock.sleep.isSome = true := Option.isSome_iff_ne_none.2 pending
  simp only [cancelSleep, some', if_true, reloadDoze]
  by_cases dozing : s.clock.power = .doze
  · simp [dozing, loadDoze]
  · simp [dozing]

theorem sleepTest_waits {s : State} {p : SleepPending} (pending : s.clock.sleep = some p) (early : p.stage ≠ .ready) :
    sleepTest s = s := by
  simp [sleepTest, pending, early]

theorem sleepTest_ready {s : State} {p : SleepPending} (pending : s.clock.sleep = some p) (ready : p.stage = .ready) :
    sleepTest s =
      if s.sleepConditions && s.link.queue.isEmpty then
        if s.store.commit = .idle then enterSleep s else s
      else cancelSleep s := by
  simp [sleepTest, pending, ready]

/-- Settles O31: the expiry, the entry test and the cancellation, each by what it finds. -/
theorem dozeLeadsToSleep : Obligations.DozeLeadsToSleep := by
  refine ⟨fun s => ⟨fun due => ⟨fun ready => ?_, fun unready => ?_⟩, fun idle => ?_⟩,
    fun s p pending => ⟨fun ready conditions empty idle => ?_, fun ready conditions empty busy => ?_,
      fun ready ends => ?_, sleepTest_waits pending⟩, fun s => ⟨cancelSleep_of_none, fun pending => ?_⟩,
    fun d written form => ?_⟩
  · have conditions : s.sleepConditions = true := (sleepConditions_iff s).2 ready
    rw [exec_dozeTimerExpiry due]
    refine ⟨fun none' => ?_, fun p pending => ?_⟩
    · rw [takeDozeExpiry_sleepless due conditions none', State.boundNow_eq]
    · rw [takeDozeExpiry_pending due conditions pending]
  · have conditions : s.sleepConditions = false := by
      simpa using mt (sleepConditions_iff s).1 unready
    rw [exec_dozeTimerExpiry due, takeDozeExpiry_reloads due conditions]
  · simp [exec, execDozeTimerExpiry, whenDue, idle]
  · rw [sleepTest_ready pending ready, conditions, empty, idle]
    simp only [← corrected_eq_ite]
    rfl
  · rw [sleepTest_ready pending ready, conditions, empty]
    simp [busy]
  · have cancelled : sleepTest s = cancelSleep s := by
      rw [sleepTest_ready pending ready]
      rcases ends with conditions | full
      · simp [conditions]
      · simp [full]
    exact ⟨cancelled, by rw [cancelled, cancelSleep_sleep]⟩
  · rw [cancelSleep_of_some pending]
    simp only [← afterReply_cancelled]
    rfl
  · simp [Deferred.fields, form]

/-! ## The timers of the engine, the clutch and the coolant (R25, R33, R42) -/

theorem ceilDiv_four (n : Nat) : ceilDiv n 4 = (n + 3) / 4 := rfl

theorem confirmDue_iff {s : State} {n : Nat} (confirming : s.duty.engine = .confirming)
    (timer : s.duty.confirmTimer = some n) :
    confirmDue s = decide ((s.config.armed.engine.confirmMs + 3) / 4 ≤ n) := by
  simp only [confirmDue, confirming, timer, ceilDiv_four, beq_self_eq_true, Bool.true_and]
  exact decide_eq_decide.2 Iff.rfl

theorem lockDue_iff {s : State} {n : Nat} (slipping : s.duty.clutch = .slipping) (timer : s.duty.lockTimer = some n) :
    lockDue s = decide ((s.config.armed.clutch.lockMs + 3) / 4 ≤ n) := by
  simp only [lockDue, slipping, timer, ceilDiv_four, beq_self_eq_true, Bool.true_and]
  exact decide_eq_decide.2 Iff.rfl

/-- Settles O34: the lock timer and the freshness timer, each side of its tick. -/
theorem lockAndFreshnessExpire : Obligations.LockAndFreshnessExpire := by
  refine ⟨fun s n slipping timer => ⟨fun run => ?_, fun early => ?_⟩, fun s => ⟨fun fresh zero => ?_, fun not' => ?_⟩⟩
  · simp [exec, execLockTimerExpiry, whenDue, takeLockExpiry, lockDue_iff slipping timer, run, settled]
  · simp [exec, execLockTimerExpiry, whenDue, lockDue_iff slipping timer, Nat.not_le.2 early]
  · have due : freshnessDue s = true := by simp [freshnessDue, fresh, zero]
    refine ⟨arbitrate (raise .conditionStale .none { s with duty.fresh := false, duty.freshTimer := 0 }), ?_, ?_⟩
    · simp [exec, execFreshnessExpiry, whenDue, takeFreshnessExpiry, due, settled, goStale, fresh]
    · refine ⟨by simp, ?_, by simp, by simp, by simp, by simp, by simp, by simp, by simp, ?_⟩
      · rw [(arbitrate_flags _ _).1, raise_get, if_pos rfl]
        exact FlagState.raised_isSome ..
      · rw [(Steady.arbitrate _).queue]
        rfl
  · have idle : freshnessDue s = false := by
      rcases not' with stale | left
      · simp [freshnessDue, stale]
      · simp [freshnessDue, left]
    simp [exec, execFreshnessExpiry, whenDue, idle]

/-! ## Start attempts (chapter 3) -/

theorem closeAttempt_of_none {s : State} {cls : AttemptClass} (closed : s.starts.attempt = none) :
    closeAttempt cls s = s := by
  simp [closeAttempt, closed]

/-- An attempt counted and charged, before it is logged (R53, R54). -/
def countedAndCharged (cls : AttemptClass) (a : Attempt) (s : State) : State :=
  charge
    (Eight.ofFn fun k =>
      startRaw cls a.tenths (startConditions s.config.armed.conditions.lowBatteryLimit a a.closedMin) s
        (s.config.armed.slots.get k))
    { s with
      starts.life := s.starts.life.bump cls,
      hires.current := s.hires.current.map fun h =>
        { h with counters := { h.counters with starts := h.counters.starts.bump cls } } }

theorem Eight.map_eq_ofFn {α β : Type} (f : α → β) (e : Eight α) : e.map f = Eight.ofFn fun k => f (e.get k) :=
  Eight.ext_get fun k => by simp

theorem closeAttempt_of_some {s : State} {cls : AttemptClass} {a : Attempt} (attempt : s.starts.attempt = some a) :
    closeAttempt cls s = { logStart a cls (countedAndCharged cls a s) with starts.attempt := none } := by
  simp only [closeAttempt, attempt, chargeStart, Eight.map_eq_ofFn]
  rfl

theorem countedAndCharged_starts (cls : AttemptClass) (a : Attempt) (s : State) :
    (countedAndCharged cls a s).starts = { s.starts with life := s.starts.life.bump cls } := by
  simp [countedAndCharged]

theorem logStart_of_exhausted {a : Attempt} {cls : AttemptClass} {s : State} (full : 4294967296 ≤ s.starts.next) :
    logStart a cls s = s := if_pos full

theorem logStart_of_room {a : Attempt} {cls : AttemptClass} {s : State} (room : s.starts.next < 4294967296) :
    logStart a cls s =
      raise .startLogged (.hire a.hire)
        { s with
          starts.log := (startEntry a cls s.starts.next :: s.starts.log).take 32,
          starts.next := s.starts.next + 1 } := by
  have follows : nextNumber s.starts.next = s.starts.next + 1 := by
    simp only [nextNumber, exhausted]
    omega
  have open' : ¬ s.starts.next ≥ exhausted := Nat.not_le.2 room
  rw [logStart, if_neg open', follows]

theorem exec_confirmTimerExpiry {s : State} {n : Nat} {a : Attempt} (confirming : s.duty.engine = .confirming)
    (timer : s.duty.confirmTimer = some n) (run : (s.config.armed.engine.confirmMs + 3) / 4 ≤ n)
    (attempt : s.starts.attempt = some a) :
    exec .confirmTimerExpiry s =
      .next (arbitrate
        { closeAttempt a.successClass s with duty.engine := .running, duty.confirmTimer := none }) := by
  have due : confirmDue s = true := by rw [confirmDue_iff confirming timer, decide_eq_true run]
  have turns : (closeAttempt a.successClass s).duty.engine.turning = Engine.running.turning := by
    rw [(closeAttempt_frame _ _).2.1, confirming]
    rfl
  simp only [exec, execConfirmTimerExpiry, whenDue, takeConfirmExpiry, due, if_true, attempt, settled,
    moveEngine_of_same_turning turns]
  rfl

/-- Settles O33: the opening, the confirmation and the close of an attempt. -/
theorem startsAreConfirmed : Obligations.StartsAreConfirmed := by
  refine ⟨fun kind s => ?_, fun s n confirming timer => ⟨fun a attempt run => ?_, fun early => ?_⟩,
    fun s cls a attempt => ⟨fun full => ?_, fun room => ?_⟩, fun s cls => closeAttempt_of_none,
    fun c => ⟨rfl, rfl, rfl, rfl, rfl⟩⟩
  · cases kind <;> rfl
  · exact exec_confirmTimerExpiry confirming timer run attempt
  · have idle : confirmDue s = false := by rw [confirmDue_iff confirming timer, decide_eq_false (Nat.not_le.2 early)]
    simp [exec, execConfirmTimerExpiry, whenDue, idle]
  · have next : (countedAndCharged cls a s).starts.next = s.starts.next := by rw [countedAndCharged_starts]
    rw [closeAttempt_of_some attempt, logStart_of_exhausted (by rwa [next])]
    rfl
  · have next : (countedAndCharged cls a s).starts.next = s.starts.next := by rw [countedAndCharged_starts]
    rw [closeAttempt_of_some attempt, logStart_of_room (by rwa [next])]
    show _ = raise .startLogged (.hire a.hire)
      { countedAndCharged cls a s with
        starts.attempt := none, starts.next := s.starts.next + 1,
        starts.log := (startEntry a cls s.starts.next :: s.starts.log).take 32 }
    have starts := countedAndCharged_starts cls a s
    generalize countedAndCharged cls a s = charged at starts ⊢
    simp only [starts, raise]

end Sys2Proof.Machine
end

section
/-! The tally: the gear tracker, the quantities of the laws, and the order of the work (chapters 2 and 4). -/

namespace Sys2Proof.Machine

set_option Elab.async false

open Sys2Proof Sys2Proof.Safety

/-! ## The gear tracker (R38, R39) -/

theorem GearEntry.contains_iff (e : GearEntry) (ratio : Nat) :
    e.contains ratio = true ↔ 0 < ratio ∧ e.nominal ≤ ratio + e.tolerance ∧ ratio ≤ e.nominal + e.tolerance := by
  simp [GearEntry.contains]

theorem gearOfRatio_mem (ratio : Nat) (gs : List (Gear × Option GearEntry)) :
    gearOfRatio ratio gs = 0 ∨ ∃ e, (gearOfRatio ratio gs, some e) ∈ gs ∧ e.contains ratio = true := by
  induction gs with
  | nil => exact .inl rfl
  | cons p rest ih =>
    obtain ⟨g, entry⟩ := p
    have later (h : gearOfRatio ratio ((g, entry) :: rest) = gearOfRatio ratio rest) :
        gearOfRatio ratio ((g, entry) :: rest) = 0 ∨
          ∃ e, (gearOfRatio ratio ((g, entry) :: rest), some e) ∈ (g, entry) :: rest ∧ e.contains ratio = true := by
      rw [h]
      exact ih.imp id fun ⟨e, mem, hit⟩ => ⟨e, List.mem_cons_of_mem _ mem, hit⟩
    cases entry with
    | none => exact later rfl
    | some e =>
      by_cases hit : e.contains ratio = true
      · exact .inr ⟨e, by simp [gearOfRatio, hit], hit⟩
      · exact later (by simp [gearOfRatio, hit])

/-- In a table of gears that ascend from above 0, the gear found is at or below every gear whose window holds the
ratio. -/
theorem gearOfRatio_le {ratio : Nat} {gs : List (Gear × Option GearEntry)} (ascends : gs.Pairwise fun a b => a.1 ≤ b.1)
    (positive : ∀ p ∈ gs, p.1 ≠ 0) {d : Gear} {e : GearEntry} (mem : (d, some e) ∈ gs) (hit : e.contains ratio = true) :
    gearOfRatio ratio gs ≠ 0 ∧ gearOfRatio ratio gs ≤ d := by
  induction gs with
  | nil => cases mem
  | cons p rest ih =>
    obtain ⟨g, entry⟩ := p
    obtain ⟨below, ascends⟩ := List.pairwise_cons.1 ascends
    have found : gearOfRatio ratio rest ≠ 0 ∧ gearOfRatio ratio rest ≤ d ∨ (d, some e) = (g, entry) := by
      rcases List.mem_cons.1 mem with here | there
      · exact .inr here
      · exact .inl (ih ascends (fun p h => positive p (List.mem_cons_of_mem _ h)) there)
    cases entry with
    | none => simpa [gearOfRatio] using found
    | some f =>
      by_cases first : f.contains ratio = true
      · simp only [gearOfRatio, first, if_true]
        refine ⟨positive (g, some f) List.mem_cons_self, ?_⟩
        rcases List.mem_cons.1 mem with here | there
        · exact le_of_eq (Prod.mk.inj here).1.symm
        · exact below _ there
      · simp only [gearOfRatio, first, Bool.false_eq_true, if_false]
        rcases found with later | here
        · exact later
        · obtain rfl : e = f := Option.some.inj (Prod.mk.inj here).2
          exact absurd hit first

theorem numberedGears_ascend (g : Six (Option GearEntry)) : (numberedGears g).Pairwise fun a b => a.1 ≤ b.1 := by
  simp [numberedGears]

theorem numberedGears_positive (g : Six (Option GearEntry)) : ∀ p ∈ numberedGears g, p.1 ≠ 0 := by
  simp [numberedGears]

theorem candidateGear_of_ratio {s : State} (turns : s.config.armed.shift.oMinimum ≤ s.inputs.out.speed)
    (forward : s.inputs.rvs.level = false) :
    candidateGear s =
      gearOfRatio (s.inputs.inp.speed * 1000 / s.inputs.out.speed) (numberedGears s.config.armed.gears) := by
  simp [candidateGear, Nat.not_lt.2 turns, forward]

/-- The tracker's run count at a tally. -/
def gearRun (s : State) : Nat :=
  if candidateGear s = s.duty.heldGear then min (s.duty.runCount + 1) 30 else 1

/-- The state with the candidate held and the run counted (R39). -/
def gearHeld (s : State) : State :=
  { s with duty.heldGear := candidateGear s, duty.runCount := gearRun s }

theorem trackGear_eq (s : State) :
    trackGear s =
      if s.config.armed.shift.tallies ≤ gearRun s ∧ s.duty.gear ≠ candidateGear s then
        if candidateGear s = 0 then { gearHeld s with duty.gear := candidateGear s }
        else engageGear (candidateGear s) { gearHeld s with duty.gear := candidateGear s }
      else gearHeld s := rfl

theorem engageGear_eq (g : Gear) (s : State) :
    engageGear g s =
      let engaged : State :=
        { s with
          duty.meters.gearEngagements := s.duty.meters.gearEngagements.modify g fun k => min (k + 1) 4294967295,
          hires.current := s.hires.current.map fun h =>
            { h with
              counters :=
                { h.counters with gearEngagements := min (h.counters.gearEngagements + 1) 4294967295 } } }
      charge (Eight.ofFn fun k => shiftRaw g engaged (s.config.armed.slots.get k)) engaged := by
  rw [engageGear, chargeShift, Eight.map_eq_ofFn]
  rfl

/-- Settles O36: the candidate, the run and the engagement. -/
theorem gearIsTracked : Obligations.GearIsTracked := by
  intro s
  refine ⟨fun turns reverse => ?_, fun slow => ?_, fun turns forward => ⟨?_, fun d g mem positive low high => ?_⟩,
    fun same => ?_, fun run differs moving => ?_⟩
  · simp [candidateGear, Nat.not_lt.2 turns, reverse]
  · simp [candidateGear, slow]
  · rw [candidateGear_of_ratio turns forward]
    refine (gearOfRatio_mem _ _).imp id fun ⟨e, mem, hit⟩ => ⟨e, mem, ?_⟩
    exact (GearEntry.contains_iff ..).1 hit
  · rw [candidateGear_of_ratio turns forward]
    exact gearOfRatio_le (numberedGears_ascend _) (numberedGears_positive _) mem
      ((GearEntry.contains_iff ..).2 ⟨positive, low, high⟩)
  · have tallies : s.config.armed.shift.tallies = (s.config.armed.shift.confirmMs + 99) / 100 := rfl
    rw [trackGear_eq, tallies]
    show _ = { gearHeld s with
      duty.gear :=
        if (s.config.armed.shift.confirmMs + 99) / 100 ≤ gearRun s then candidateGear s else s.duty.gear }
    by_cases run : (s.config.armed.shift.confirmMs + 99) / 100 ≤ gearRun s
    · rcases same with short | gear | none'
      · exact absurd run (Nat.not_le.2 short)
      · rw [if_neg (by simp [gear]), if_pos run, ← gear]
        rfl
      · by_cases gear : s.duty.gear = candidateGear s
        · rw [if_neg (by simp [gear]), if_pos run, ← gear]
          rfl
        · rw [if_pos ⟨run, gear⟩, if_pos none', if_pos run]
    · rw [if_neg (fun h => run h.1), if_neg run]
      rfl
  · have confirmed : s.config.armed.shift.tallies ≤ gearRun s ∧ s.duty.gear ≠ candidateGear s := ⟨run, differs⟩
    have gear : candidateGear s ≠ 0 := moving
    rw [trackGear_eq, if_pos confirmed, if_neg gear, engageGear_eq]
    rfl

/-! ## The quantities of the laws (R43, R65 to R74) -/

theorem conditions_cold_iff (s : State) :
    s.conditions.cold = true ↔
      s.duty.fresh = true ∧ ∃ t, s.duty.coolant = some t ∧ t < s.config.armed.conditions.coldLimit := by
  cases h : s.duty.coolant <;> simp [State.conditions, h]

theorem conditions_hot_iff (s : State) :
    s.conditions.hot = true ↔
      s.duty.fresh = true ∧ ∃ t, s.duty.coolant = some t ∧ s.config.armed.conditions.hotLimit < t := by
  cases h : s.duty.coolant <;> simp [State.conditions, h]

theorem conditions_load_iff (s : State) : s.conditions.load = true ↔ s.duty.load = .laden ∨ s.duty.load = .towing := by
  cases h : s.duty.load <;> simp [State.conditions, h]

theorem tallyRaw_hour {s : State} {c : SlotSettings} (drained : Nat) (hour : c.law = .hour) :
    tallyRaw drained s c =
      some (rawIncrement (if s.duty.engine.turning then 1 else 0)
        (c.weights.get (bandOf s.config.armed.bands s.inputs.eng.speed))
        (severity s.config.armed.conditions s.conditions c.map) 1) := by
  simp [tallyRaw, hour]

theorem tallyRaw_slip {s : State} {c : SlotSettings} (drained : Nat) (slip : c.law = .slip) :
    tallyRaw drained s c =
      some (rawIncrement (if s.duty.clutch = .slipping then s.slip else 0) (c.weights.get s.duty.gear)
        (severity s.config.armed.conditions s.conditions c.map) 600) := by
  simp [tallyRaw, slip]

theorem tallyRaw_rev {s : State} {c : SlotSettings} (drained : Nat) (rev : c.law = .rev) :
    tallyRaw drained s c =
      some (rawIncrement drained (c.weights.get s.duty.gear)
        (severity s.config.armed.conditions s.conditions c.map) 1) := by
  simp [tallyRaw, rev]

theorem rawIncrement_zero (w sev d : Nat) : rawIncrement 0 w sev d = 0 := by
  simp [rawIncrement]

theorem rawIncrement_one (w sev : Nat) : rawIncrement 1 w sev 1 = min (w * sev) 16777215 := by
  simp [rawIncrement, rawTop]

theorem bandsPass_strictMono {edges : Eight Nat} (pass : bandsPass edges = true) : StrictMono edges.get := by
  simp only [bandsPass, ascends, Eight.toList, Bool.and_eq_true, decide_eq_true_eq, Bool.and_true] at pass
  obtain ⟨-, h1, h2, h3, h4, h5, h6, h7⟩ := pass
  refine Fin.strictMono_iff_lt_succ.2 fun i => ?_
  match i with
  | 0 => exact h1
  | 1 => exact h2
  | 2 => exact h3
  | 3 => exact h4
  | 4 => exact h5
  | 5 => exact h6
  | 6 => exact h7

/-- A band is the highest at or below a speed when the next edge is above it. -/
theorem le_band {edges : Eight Nat} {e : Nat} (pass : bandsPass edges = true) {i j : Fin 8} (next : j.val = i.val + 1)
    (above : ¬ edges.get j ≤ e) (b : Fin 8) (le : edges.get b ≤ e) : b ≤ i := by
  by_contra higher
  have from' : j ≤ b := by omega
  exact above (((bandsPass_strictMono pass).monotone from').trans le)

/-- Of ascending edges from 0, the band of a speed is the highest whose edge is at or below it. -/
theorem bandOf_highest {edges : Eight Nat} (e : Nat) (pass : bandsPass edges = true) :
    edges.get (bandOf edges e) ≤ e ∧ ∀ b : Fin 8, edges.get b ≤ e → b ≤ bandOf edges e := by
  have zero : edges.s0 = 0 := by
    simp only [bandsPass, Bool.and_eq_true, beq_iff_eq] at pass
    exact pass.1
  unfold bandOf
  split
  next at7 => exact ⟨at7, fun b _ => by omega⟩
  next over7 =>
  split
  next at6 => exact ⟨at6, le_band pass (j := 7) rfl over7⟩
  next over6 =>
  split
  next at5 => exact ⟨at5, le_band pass (j := 6) rfl over6⟩
  next over5 =>
  split
  next at4 => exact ⟨at4, le_band pass (j := 5) rfl over5⟩
  next over4 =>
  split
  next at3 => exact ⟨at3, le_band pass (j := 4) rfl over4⟩
  next over3 =>
  split
  next at2 => exact ⟨at2, le_band pass (j := 3) rfl over3⟩
  next over2 =>
  split
  next at1 => exact ⟨at1, le_band pass (j := 2) rfl over2⟩
  next over1 => exact ⟨by rw [Eight.get, zero]; exact Nat.zero_le e, le_band pass (j := 1) rfl over1⟩

/-- Settles O37: the conditions, the band, the severity and the raw increment of each law. -/
theorem lawsChargeTheirQuantity : Obligations.LawsChargeTheirQuantity := by
  refine ⟨fun s => ⟨conditions_cold_iff s, conditions_hot_iff s, conditions_load_iff s, by simp [State.conditions]⟩,
    fun edges e => bandOf_highest e, fun s drained c => ⟨rfl, fun hour turns => ?_, fun hour still => ?_,
      fun slip slipping => ?_, fun slip holds => ?_, fun rev => ?_, fun others => ?_⟩,
    fun s c g a cls low => ⟨fun shift => ?_, fun other => ?_, fun start => ?_, fun other => ?_, rfl, rfl, rfl, rfl,
      rfl⟩⟩
  · rw [tallyRaw_hour drained hour, (turning_iff _).2 turns, if_pos rfl, rawIncrement_one]
  · rw [tallyRaw_hour drained hour, if_neg (mt (turning_iff _).1 still), rawIncrement_zero]
  · rw [tallyRaw_slip drained slip, if_pos slipping]
    rfl
  · rw [tallyRaw_slip drained slip, if_neg holds, rawIncrement_zero]
  · rw [tallyRaw_rev drained rev, rawIncrement, Nat.div_one]
    rfl
  · rcases others with none' | start | shift
    · simp [tallyRaw, none']
    · simp [tallyRaw, start]
    · simp [tallyRaw, shift]
  · rw [shiftRaw, if_pos shift, rawIncrement_one]
  · rw [shiftRaw, if_neg other]
  · rw [startRaw, if_pos start]
    rfl
  · rw [startRaw, if_neg other]

/-! ## The tally (R153) -/

theorem tallyMeters_eq (n : Nat) (s : State) :
    tallyMeters n (drainOut s) =
      { s with
        inputs.outPending := s.inputs.outPending - s.drain,
        duty.meters :=
          { s.duty.meters with
            runTallies := min (s.duty.meters.runTallies + if s.duty.engine.turning then 1 else 0) 4294967295,
            ignitionTallies := min (s.duty.meters.ignitionTallies + if s.inputs.ign.level then 1 else 0) 4294967295,
            outputRevolutions := min (s.duty.meters.outputRevolutions + n) 4294967295 },
        hires.current := s.hires.current.map fun h =>
          { h with
            counters :=
              { h.counters with
                runTallies := min (h.counters.runTallies + if s.duty.engine.turning then 1 else 0) 4294967295,
                outputRevolutions := min (h.counters.outputRevolutions + n) 4294967295 } } } := rfl

theorem chargeTally_eq (n : Nat) (s : State) :
    chargeTally n s = charge (Eight.ofFn fun k => tallyRaw n s (s.config.armed.slots.get k)) s := by
  rw [chargeTally, Eight.map_eq_ofFn]

/-- Settles O35: the drain and the meters, and then the three parts in the order given. -/
theorem tallyDrainsAndCounts : Obligations.TallyDrainsAndCounts := by
  intro s o
  refine ⟨fun awake due => ?_, fun none' => ?_⟩
  · simp only [exec, execTally, whenDue, awake, due, Bool.and_self, if_true, settled, takeTally, ← chargeTally_eq,
      ← turning_iff]
    obtain ⟨gearFirst, reportFirst⟩ := o
    cases gearFirst
    · cases reportFirst
      · rfl
      · rfl
    · cases reportFirst
      · rfl
      · rfl
  · rcases none' with asleep | idle
    · simp [exec, execTally, whenDue, asleep]
    · simp [exec, execTally, whenDue, idle]

end Sys2Proof.Machine
end

section
/-! The wear of one event: each slot's meters, the one attribution target, and the flags of new marks (sections 4.4, 5.1.2
and 6.6.1). -/

namespace Sys2Proof.Machine

set_option Elab.async false

open Sys2Proof Sys2Proof.Safety

/-! ## One slot (R75 to R78) -/

theorem chargeSlot_residue (c : SlotSettings) (raw : Nat) (m : SlotMeters) :
    (chargeSlot c raw m).residue = (m.residue + raw) % 256 := by
  unfold chargeSlot
  dsimp only
  split
  · rfl
  · split
    · rfl
    · rfl

theorem chargeSlot_of_discard {c : SlotSettings} {raw : Nat} {m : SlotMeters}
    (none' : m.frozen = true ∨ (m.residue + raw) / 256 = 0) :
    chargeSlot c raw m = { m with residue := (m.residue + raw) % 256 } ∧ delivered raw m = 0 := by
  rcases none' with frozen | zero
  · simp [chargeSlot, delivered, frozen]
  · simp [chargeSlot, delivered, wholeIncrement, zero]

theorem chargeSlot_of_freeze {c : SlotSettings} {raw : Nat} {m : SlotMeters} (live : m.frozen = false)
    (some' : 0 < (m.residue + raw) / 256) (beyond : 4294967295 < m.total + (m.residue + raw) / 256) :
    chargeSlot c raw m = { m with residue := (m.residue + raw) % 256, frozen := true } ∧ delivered raw m = 0 := by
  have nonzero : wholeIncrement m raw ≠ 0 := some'.ne'
  have top : m.total + wholeIncrement m raw > top32 := beyond
  simp [chargeSlot, delivered, live, nonzero, top]

theorem chargeSlot_of_delivery {c : SlotSettings} {raw : Nat} {m : SlotMeters} (live : m.frozen = false)
    (some' : 0 < (m.residue + raw) / 256) (fits : m.total + (m.residue + raw) / 256 ≤ 4294967295) :
    chargeSlot c raw m =
        deliverSlot c ((m.residue + raw) / 256) { m with residue := (m.residue + raw) % 256 } ∧
      delivered raw m = (m.residue + raw) / 256 := by
  have nonzero : wholeIncrement m raw ≠ 0 := some'.ne'
  have top : ¬ m.total + wholeIncrement m raw > top32 := Nat.not_lt.2 fits
  simp only [chargeSlot, delivered, live, Bool.false_or, beq_iff_eq, nonzero, if_false, top]
  exact ⟨rfl, rfl⟩

/-! ## The attribution target (R79) -/

theorem chargeAll_get (cs : Eight SlotSettings) (raws : Eight (Option Nat)) (ms : Eight SlotMeters) (k : Slot) :
    (chargeAll cs raws ms).get k =
      match raws.get k with
      | some r => chargeSlot (cs.get k) r (ms.get k)
      | none => ms.get k := by
  rw [chargeAll, Eight.get_ofFn]
  cases raws.get k <;> rfl

theorem deliveredAll_get (raws : Eight (Option Nat)) (ms : Eight SlotMeters) (k : Slot) :
    (deliveredAll raws ms).get k =
      match raws.get k with
      | some r => delivered r (ms.get k)
      | none => 0 := by
  rw [deliveredAll, Eight.get_ofFn]
  cases raws.get k <;> rfl

theorem charge_slots (raws : Eight (Option Nat)) (s : State) :
    (charge raws s).table.slots = chargeAll s.config.armed.slots raws s.table.slots := by
  simp [charge]

theorem creditTarget_of_none {h : Hires} (ws : Eight Nat) (none' : h.current = none) :
    creditTarget ws h = { h with idle := Eight.zip (· + ·) h.idle ws } := by
  simp [creditTarget, none']

theorem creditTarget_of_active {h : Hires} {r : HireRecord} (ws : Eight Nat) (current : h.current = some r)
    (active : r.suspended = false) :
    creditTarget ws h = { h with current := some { r with main := Eight.zip (· + ·) r.main ws } } := by
  simp [creditTarget, current, active]

theorem creditTarget_of_suspended {h : Hires} {r : HireRecord} (ws : Eight Nat) (current : h.current = some r)
    (suspended : r.suspended = true) :
    creditTarget ws h =
      { h with current := some { r with recovery := some (Eight.zip (· + ·) (r.recovery.getD zeroAccounts) ws) } } := by
  simp [creditTarget, current, suspended]

/-! ## The flags of new marks (R77, R86 to R88) -/

/-- A raise for slots changes the flags and the count of free picks alone. -/
theorem raiseForSlots_changes (f : Flag) (ks : List Slot) (s : State) :
    { raiseForSlots f ks s with link.flags := s.link.flags, freePicks := s.freePicks } = s := by
  unfold raiseForSlots
  split
  · rfl
  · rfl
  · rfl

theorem raiseForSlots_other {f g : Flag} (other : g ≠ f) (ks : List Slot) (s : State) :
    (raiseForSlots f ks s).link.flags.get g = s.link.flags.get g := by
  unfold raiseForSlots
  split
  · rfl
  · rw [raise_get, if_neg other]
  · exact (raise_get ..).trans (if_neg other)

theorem raiseForSlots_nil (f : Flag) (s : State) : raiseForSlots f [] s = s := rfl

theorem raiseForSlots_eq_raise (f : Flag) {ks : List Slot} (some' : ks ≠ []) (s : State) :
    ∃ k ∈ ks, (raiseForSlots f ks s).link.flags = (raise f (.index k.val) s).link.flags := by
  match ks with
  | [] => exact absurd rfl some'
  | [k] => exact ⟨k, List.mem_singleton_self k, rfl⟩
  | k :: j :: rest =>
    refine ⟨(k :: j :: rest).getD (Config.freePick s.freePicks % ((j :: rest).length + 1)) k, ?_, rfl⟩
    have within : Config.freePick s.freePicks % ((j :: rest).length + 1) < (k :: j :: rest).length :=
      Nat.mod_lt _ (Nat.succ_pos _)
    rw [List.getD_eq_getElem _ _ within]
    exact List.getElem_mem _

/-- What a raise for slots leaves of its own flag. -/
theorem raiseForSlots_own (f : Flag) (ks : List Slot) (s : State) :
    (ks = [] ∨ (s.link.flags.get f).set.isSome = true →
      (raiseForSlots f ks s).link.flags.get f = s.link.flags.get f) ∧
    ((s.link.flags.get f).set = none → ks ≠ [] →
      ∃ k ∈ ks, (raiseForSlots f ks s).link.flags.get f =
        ⟨some ⟨.index k.val, s.clock.time⟩, (s.link.flags.get f).enabled, (s.link.flags.get f).enabled⟩) := by
  refine ⟨fun stands => ?_, fun clear some' => ?_⟩
  · by_cases none' : ks = []
    · rw [none', raiseForSlots_nil]
    · obtain ⟨k, -, same⟩ := raiseForSlots_eq_raise f none' s
      rw [same, raise_get, if_pos rfl, FlagState.raised_of_set (stands.resolve_left none')]
  · obtain ⟨k, mem, same⟩ := raiseForSlots_eq_raise f some' s
    exact ⟨k, mem, by rw [same, raise_get, if_pos rfl, FlagState.raised_of_clear clear]⟩

theorem raiseMarks_changes (before : Eight SlotMeters) (s : State) :
    { raiseMarks before s with link.flags := s.link.flags, freePicks := s.freePicks } = s := by
  have changes (f : Flag) (ks : List Slot) (u : State)
      (h : { u with link.flags := s.link.flags, freePicks := s.freePicks } = s) :
      { raiseForSlots f ks u with link.flags := s.link.flags, freePicks := s.freePicks } = s := by
    have same := congrArg
      (fun t : State => ({ t with link.flags := s.link.flags, freePicks := s.freePicks } : State))
      (raiseForSlots_changes f ks u)
    exact same.trans h
  exact changes _ _ _ (changes _ _ _ (changes _ _ _ rfl))

/-- A flag's place among the three raises of new marks: the state before its raise, and the flag's state after all. -/
theorem raiseMarks_own {before : Eight SlotMeters} {s u : State} {f : Flag} {p : SlotMeters → Bool}
    (same : u.link.flags.get f = s.link.flags.get f) (time : u.clock.time = s.clock.time)
    (after : (raiseMarks before s).link.flags.get f =
      (raiseForSlots f (newlySet p before s.table.slots) u).link.flags.get f) :
    ((∀ k, ¬ (p (before.get k) = false ∧ p (s.table.slots.get k) = true)) ∨
        (s.link.flags.get f).set.isSome = true →
      (raiseMarks before s).link.flags.get f = s.link.flags.get f) ∧
    ((s.link.flags.get f).set = none → (∃ k, p (before.get k) = false ∧ p (s.table.slots.get k) = true) →
      ∃ k, (p (before.get k) = false ∧ p (s.table.slots.get k) = true) ∧
        (raiseMarks before s).link.flags.get f =
          ⟨some ⟨.index k.val, s.clock.time⟩, (s.link.flags.get f).enabled, (s.link.flags.get f).enabled⟩) := by
  obtain ⟨stands, raised⟩ := raiseForSlots_own f (newlySet p before s.table.slots) u
  rw [after]
  rw [same] at stands raised
  rw [time] at raised
  refine ⟨fun h => stands (h.imp (fun none' => ?_) id), fun clear ⟨k, new⟩ => ?_⟩
  · exact List.eq_nil_iff_forall_not_mem.2 fun k mem => none' k ((mem_newlySet ..).1 mem)
  · obtain ⟨j, mem, is⟩ := raised clear (List.ne_nil_of_mem ((mem_newlySet ..).2 new))
    exact ⟨j, (mem_newlySet ..).1 mem, is⟩

/-- Settles O38: the slot, the target and the marks, each by its lemma. -/
theorem wearIsDelivered : Obligations.WearIsDelivered := by
  refine ⟨fun c raw m => ⟨chargeSlot_residue c raw m, chargeSlot_of_discard, chargeSlot_of_freeze,
      fun live some' fits => chargeSlot_of_delivery live some' fits⟩,
    fun s raws k => ⟨?_, fun none' => ?_, fun h current => ?_, by simp, by simp, by simp, by simp, by simp, by simp,
      by simp, by simp⟩,
    fun s raws => ⟨_, rfl, rfl⟩, fun s before => ⟨?_, ?_, ?_, fun f other => ?_, ?_⟩⟩
  · exact (congrArg (·.get k) (charge_slots raws s)).trans (chargeAll_get ..)
  · rw [charge_current, creditTarget_of_none _ none']
    refine ⟨?_, none'⟩
    exact (Eight.get_zip ..).trans (congrArg (s.hires.idle.get k + ·) (deliveredAll_get ..))
  · cases suspended : h.suspended with
    | false =>
      rw [charge_current, creditTarget_of_active _ current suspended]
      refine ⟨rfl, _, rfl, rfl, suspended, rfl, fun _ => ⟨?_, rfl⟩, fun absurd' => Bool.noConfusion absurd'⟩
      exact (Eight.get_zip ..).trans (congrArg (h.main.get k + ·) (deliveredAll_get ..))
    | true =>
      rw [charge_current, creditTarget_of_suspended _ current suspended]
      refine ⟨rfl, _, rfl, rfl, suspended, rfl, fun absurd' => Bool.noConfusion absurd', fun _ => ⟨rfl, _, rfl, ?_⟩⟩
      exact (Eight.get_zip ..).trans (congrArg ((h.recovery.getD zeroAccounts).get k + ·) (deliveredAll_get ..))
  · refine raiseMarks_own
      (u := raiseForSlots .slotFrozen (newlySet (·.frozen) before s.table.slots) s) ?_ (by simp) ?_
    · rw [raiseForSlots_other (by decide)]
    · rw [raiseMarks, raiseForSlots_other (by decide)]
  · refine raiseMarks_own (u := raiseForSlots .slotAdvisory (newlySet (·.advisory) before s.table.slots)
      (raiseForSlots .slotFrozen (newlySet (·.frozen) before s.table.slots) s)) ?_ (by simp) rfl
    rw [raiseForSlots_other (by decide), raiseForSlots_other (by decide)]
  · refine raiseMarks_own rfl rfl ?_
    rw [raiseMarks, raiseForSlots_other (by decide), raiseForSlots_other (by decide)]
  · simp only [List.mem_cons, List.not_mem_nil, or_false, not_or] at other
    obtain ⟨advisory, due, frozen⟩ := other
    rw [raiseMarks, raiseForSlots_other due, raiseForSlots_other advisory, raiseForSlots_other frozen]
  · exact raiseMarks_changes before s

end Sys2Proof.Machine
end

section
/-! Commits: the ask, the snapshot and the completion (chapter 10); and the close of a hire (section 6.4, chapter 7). -/

namespace Sys2Proof.Machine

set_option Elab.async false

open Sys2Proof Sys2Proof.Safety

theorem areaAfter_eq (a : Area) : areaAfter a = a + 1 := by
  match a with
  | 0 => rfl
  | 1 => rfl
  | 2 => rfl
  | 3 => rfl

theorem nextArea_eq (st : Store) :
    st.nextArea =
      (let start : Area := match st.lastArea with
        | some a => a + 1
        | none => 0
       [start, start + 1, start + 2, start + 3].find? fun a => st.usable.get a) := by
  have areas (a : Area) : [a, a + 1, a + 1 + 1, a + 1 + 1 + 1] = [a, a + 1, a + 2, a + 3] := by
    revert a
    decide
  cases last : st.lastArea with
  | none =>
    simp only [Store.nextArea, last, areaAfter_eq]
    exact congrArg _ (areas 0)
  | some a =>
    simp only [Store.nextArea, last, areaAfter_eq]
    exact congrArg _ (areas (a + 1))

theorem four_areas (start a : Area) : a ∈ [start, start + 1, start + 2, start + 3] := by
  revert start a
  decide

theorem anyUsable_iff (st : Store) : st.anyUsable = true ↔ ∃ a, st.usable.get a = true := by
  constructor
  · intro any'
    simp only [Store.anyUsable, Four.toList, List.any_cons, List.any_nil, id, Bool.or_eq_true, Bool.or_false] at any'
    rcases any' with h | h | h | h
    · exact ⟨0, h⟩
    · exact ⟨1, h⟩
    · exact ⟨2, h⟩
    · exact ⟨3, h⟩
  · rintro ⟨a, h⟩
    match a with
    | 0 => simp_all [Store.anyUsable, Four.toList, Four.get]
    | 1 => simp_all [Store.anyUsable, Four.toList, Four.get]
    | 2 => simp_all [Store.anyUsable, Four.toList, Four.get]
    | 3 => simp_all [Store.anyUsable, Four.toList, Four.get]

/-- No area is next exactly while none is usable (R165, R171). -/
theorem nextArea_eq_none_iff (st : Store) : st.nextArea = none ↔ st.anyUsable = false := by
  rw [nextArea_eq, ← Bool.not_eq_true, anyUsable_iff, List.find?_eq_none]
  exact ⟨fun none' ⟨a, usable⟩ => none' a (four_areas _ a) usable, fun none' a _ usable => none' ⟨a, usable⟩⟩

/-! ## What waits for a completion (R156, R157, R169) -/

theorem completed_eq (p : SleepPending) :
    p.completed =
      if p.stage = .commit .current then { p with stage := if p.origin = .dozeExpiry then .ready else .reply } else p := by
  unfold SleepPending.completed
  cases h : p.origin <;> simp

theorem not_current_iff (b : Bound) : decide (b ≠ .current) = decide (b = .next) := by
  cases b <;> rfl

theorem completionReaches_eq (ok : Bool) (written : Option (Nat × Area)) (nextHire : Option Nat) (afterHold : Bool)
    (s : State) :
    completionReaches ok written nextHire afterHold s =
      { s with
        link.ready := s.link.ready ++
          (s.link.deferred.filter (fun d => d.bound = .current)).map (Deferred.release ok written s.inputs.captureUs),
        link.deferred := s.link.deferred.filter (fun d => d.bound = .next),
        hires.secured := nextHire.getD s.hires.secured,
        clock.sleep := s.clock.sleep.map (fun p =>
          if p.stage = .commit .current then
            { p with stage := if p.origin = .dozeExpiry then .ready else .reply }
          else p),
        clock.hold := s.clock.hold && !(ok && afterHold) && (ok || s.store.anyUsable) } := by
  have completed : SleepPending.completed = fun p =>
      if p.stage = .commit .current then { p with stage := if p.origin = .dozeExpiry then .ready else .reply }
      else p := funext completed_eq
  simp only [completionReaches, releaseReplies, not_current_iff, completed]

theorem bindNext_eq (s : State) :
    bindNext s =
      { s with
        link.deferred := s.link.deferred.map fun d => { d with bound := .current },
        clock.sleep := s.clock.sleep.map fun p =>
          if p.stage = .commit .next then { p with stage := .commit .current } else p } := by
  have bound : (fun p : SleepPending =>
      match p.stage with
      | .commit _ => { p with stage := .commit .current }
      | _ => p) = fun p => if p.stage = .commit .next then { p with stage := .commit .current } else p := by
    funext p
    obtain ⟨origin, stage, held, just⟩ := p
    match stage with
    | .commit .current => rfl
    | .commit .next => rfl
    | .reply => rfl
    | .ready => rfl
  exact congrArg (fun g : SleepPending → SleepPending =>
    ({ s with
      link.deferred := s.link.deferred.map fun d => { d with bound := .current },
      clock.sleep := s.clock.sleep.map g } : State)) bound

theorem Deferred.fields_eq (d : Deferred) (written : Option (Nat × Area)) :
    d.fields written =
      match d.form with
      | .kept fields => fields
      | .checkpoint => [.opt 4 (written.map (·.1)), .opt 1 (written.map (·.2.val))]
      | .sleepOutcome => [.num 1 (if d.after = .sleepCancelled then 1 else 0)] := rfl

/-! ## The ask (R165 to R167, R171) -/

theorem askCommit_of_idle {s : State} (idle : s.store.commit = .idle) : askCommit s = beginCommit s := by
  simp [askCommit, idle]

theorem askCommit_starts {s : State} {a : Area} (idle : s.store.commit = .idle) (next : s.store.nextArea = some a) :
    askCommit s =
      { s with
        store.lastStart := some s.clock.time, store.lastArea := some a,
        store.lastSequence := (s.store.lastSequence + 1) % 4294967296,
        store.commit := .inFlight ⟨a, s.snapshot ((s.store.lastSequence + 1) % 4294967296), s.clock.hold⟩ } := by
  rw [askCommit_of_idle idle]
  simp only [beginCommit, next, nextSequence]

theorem askCommit_unusable {s : State} (idle : s.store.commit = .idle) (none' : s.store.nextArea = none) :
    askCommit s =
      sleepTest
        { s with
          store.lastStart := some s.clock.time,
          link.ready := s.link.ready ++
            (s.link.deferred.filter (fun d => d.bound = .current)).map
              (Deferred.release false none s.inputs.captureUs),
          link.deferred := s.link.deferred.filter (fun d => d.bound = .next),
          clock.sleep := s.clock.sleep.map (fun p =>
            if p.stage = .commit .current then
              { p with stage := if p.origin = .dozeExpiry then .ready else .reply }
            else p),
          clock.hold := false } := by
  have unusable : s.store.anyUsable = false := (nextArea_eq_none_iff _).1 none'
  have same : ({ s with store.lastStart := some s.clock.time, store.commit := .idle } : State) =
      { s with store.lastStart := some s.clock.time } := by
    rw [← idle]
  have unusable' : Store.anyUsable { s.store with lastStart := some s.clock.time } = false := unusable
  rw [askCommit_of_idle idle]
  simp only [beginCommit, none']
  rw [same, completionReaches_eq]
  simp only [unusable', Bool.false_or, Bool.and_false, Option.getD_none]

/-- Settles O39: the three commit states, and the snapshot. -/
theorem commitsAreAskedFor : Obligations.CommitsAreAskedFor := by
  refine ⟨fun s => ⟨fun a => askCommit_starts, ?_, askCommit_unusable, fun f flying => ?_, fun f pending => ?_,
    fun d written => ?_⟩, fun s n => ⟨rfl, rfl⟩⟩
  · exact nextArea_eq s.store
  · simp [askCommit, flying]
  · simp [askCommit, pending]
  · exact Deferred.fields_eq d written

/-! ## The completion (R104, R157, R162, R168, R171) -/

theorem exec_commitComplete {s : State} {f : Flight} {waits : Bool} (r : CommitResult)
    (commit : s.store.commit = if waits then .inFlightPending f else .inFlight f) :
    exec (.commitComplete r) s = .next (arbitrate (completeCommit f waits r s)) := by
  cases waits <;> simp_all [exec, execCommitComplete, whenDue, takeCompletion, settled]

/-- The commit that follows a completion starts with what waits bound to it (R169). -/
theorem beginCommit_bindNext {s : State} (idle : s.store.commit = .idle) :
    beginCommit (bindNext s) =
      askCommit
        { s with
          link.deferred := s.link.deferred.map fun d => { d with bound := .current },
          clock.sleep := s.clock.sleep.map fun p =>
            if p.stage = .commit .next then { p with stage := .commit .current } else p } := by
  have idle' : (bindNext s).store.commit = .idle := idle
  rw [← bindNext_eq, askCommit_of_idle idle']

/-- What a VERIFIED commit reaches. -/
def verifiedBy (f : Flight) (s : State) : State :=
  completionReaches true (some (f.image.sequence, f.area)) (some f.image.nextHire) f.afterHold
    { s with store.areas := s.store.areas.set f.area (.image f.image), store.commit := .idle }

/-- What a FAILED commit reaches. -/
def failedBy (f : Flight) (left : FailedArea) (s : State) : State :=
  completionReaches false (some (f.image.sequence, f.area)) none f.afterHold
    { commitFailed f left s with store.commit := .idle }

theorem completeCommit_verified (f : Flight) (waits : Bool) (s : State) :
    completeCommit f waits .verified s =
      sleepTest (if waits then beginCommit (bindNext (verifiedBy f s)) else verifiedBy f s) := by
  have never : ((CommitResult.verified : CommitResult) != .verified) = false := rfl
  simp only [completeCommit, never, Bool.and_false, Bool.or_false]
  rfl

theorem completeCommit_failed (f : Flight) (waits : Bool) (left : FailedArea) (s : State) :
    completeCommit f waits (.failed left) s =
      sleepTest
        (if waits || (failedBy f left s).clock.hold then beginCommit (bindNext (failedBy f left s))
        else failedBy f left s) := by
  have always : ((CommitResult.failed left : CommitResult) != .verified) = true := rfl
  simp only [completeCommit, always, Bool.and_true]
  rfl

theorem failedBy_hold (f : Flight) (left : FailedArea) (s : State) :
    (failedBy f left s).clock.hold = (s.clock.hold && (s.store.usable.set f.area false).toList.any id) := by
  rw [failedBy, completionReaches_eq]
  simp only [Bool.false_and, Bool.not_false, Bool.and_true, Bool.false_or]
  rfl

/-- Settles O40: the state that the completion reaches, and the commit that follows it. -/
theorem commitsEnd : Obligations.CommitsEnd := by
  intro s f waits commit
  refine ⟨?_, fun left => ?_⟩
  · have idle : (verifiedBy f s).store.commit = .idle := rfl
    rw [exec_commitComplete .verified commit, completeCommit_verified, beginCommit_bindNext idle, verifiedBy,
      completionReaches_eq]
    simp only [Bool.true_and, Bool.true_or, Bool.and_true, Option.getD_some]
    rfl
  · have idle : (failedBy f left s).store.commit = .idle := rfl
    rw [exec_commitComplete (.failed left) commit, completeCommit_failed, failedBy_hold, beginCommit_bindNext idle,
      failedBy, completionReaches_eq]
    simp only [Bool.false_and, Bool.not_false, Bool.and_true, Bool.false_or, Option.getD_none]
    rfl

/-! ## The close of a hire (R111, R125 to R127) -/

/-- A merge names the pair at its index. -/
theorem mergeAt_split {n : Nat} {h : List Summary} {r : Summary × List Summary} (merged : mergeAt n h = some r) :
    ∃ (pre post : List Summary) (a b : Summary),
      h = pre ++ a :: b :: post ∧ pre.length = n ∧ r = (mergeSummaries a b, pre ++ mergeSummaries a b :: post) := by
  induction n generalizing h r with
  | zero =>
    match h with
    | a :: b :: post =>
      obtain rfl := Option.some.inj merged
      exact ⟨[], post, a, b, rfl, rfl, rfl⟩
  | succ n ih =>
    match h with
    | c :: rest =>
      obtain ⟨q, found, rfl⟩ := Option.map_eq_some_iff.1 merged
      obtain ⟨pre, post, a, b, rfl, length, rfl⟩ := ih found
      exact ⟨c :: pre, post, a, b, rfl, by simp [length], rfl⟩

theorem appendSummary_of_room {s : State} (m : Summary) (room : s.hires.history.length < 32) :
    appendSummary m s =
      if s.hires.history.length = 23 then
        raise .historyNearFull (.hire (some m.last)) { s with hires.history := s.hires.history ++ [m] }
      else { s with hires.history := s.hires.history ++ [m] } := if_pos room

theorem appendSummary_of_full {s : State} (m : Summary) (full : s.hires.history.length = 32) :
    ∃ (pre post : List Summary) (a b : Summary),
      s.hires.history = pre ++ a :: b :: post ∧ pre.length = pairToMerge s.hires.history ∧
      appendSummary m s =
        raise .historyMerged (.hire (some a.first))
          { s with hires.history := pre ++ mergeSummaries a b :: (post ++ [m]) } := by
  have two : 2 ≤ s.hires.history.length := by omega
  obtain ⟨r, merged, -⟩ := mergeAt_of_lt (pairToMerge_lt two)
  obtain ⟨pre, post, a, b, history, length, is⟩ := mergeAt_split merged
  refine ⟨pre, post, a, b, history, length, ?_⟩
  have room : ¬ s.hires.history.length < historyMax := by
    rw [full]
    decide
  rw [appendSummary, if_neg room, merged, is]
  simp only [List.append_assoc, List.cons_append]
  rfl

theorem closeOpenHire_of_some {s : State} {h : HireRecord} (cause : CloseCause) (current : s.hires.current = some h) :
    closeOpenHire cause s =
      { appendSummary (summaryOf h cause s.clock.time) s with hires.current := none } := by
  simp only [closeOpenHire, current]

/-- What the raise of one flag at a close leaves of the flags. -/
theorem raise_flags_cases (f : Flag) (d : Detail) (s : State) :
    ((s.link.flags.get f).set = none →
      (raise f d s).link.flags.get f =
        ⟨some ⟨d, s.clock.time⟩, (s.link.flags.get f).enabled, (s.link.flags.get f).enabled⟩) ∧
    ((s.link.flags.get f).set.isSome = true → (raise f d s).link.flags.get f = s.link.flags.get f) ∧
    ∀ g, g ≠ f → (raise f d s).link.flags.get g = s.link.flags.get g := by
  refine ⟨fun clear => ?_, fun set => ?_, fun g other => ?_⟩
  · rw [raise_get, if_pos rfl, FlagState.raised_of_clear clear]
  · rw [raise_get, if_pos rfl, FlagState.raised_of_set set]
  · rw [raise_get, if_neg other]

theorem addRecovery_none {a b : Option (Eight Nat)} (noA : a = none) (noB : b = none) : addRecovery a b = none := by
  rw [noA, noB]
  rfl

theorem addRecovery_some {a b : Option (Eight Nat)} (some' : a ≠ none ∨ b ≠ none) :
    addRecovery a b = some (Eight.zip (· + ·) (a.getD zeroAccounts) (b.getD zeroAccounts)) := by
  cases a with
  | some x => rfl
  | none =>
    cases b with
    | some y => rfl
    | none => simp at some'

/-- Settles O52: the close by the room left in the history, and the merged summary. -/
theorem closedHiresJoinTheHistory : Obligations.ClosedHiresJoinTheHistory := by
  refine ⟨fun s h cause current => ⟨by simp, fun room => ?_, fun full => ?_, fun near => ?_, fun room far => ?_, ?_, ?_,
      by simp, ?_, by simp, by simp, by simp, by simp, by simp, by simp, by simp⟩,
    fun a b => ⟨rfl, rfl, rfl, rfl, rfl, rfl, rfl, rfl, rfl, fun k => Eight.get_zip .., fun noA noB => ?_, fun some' => ?_,
      rfl, rfl, rfl, rfl, rfl, rfl, rfl, rfl, rfl, rfl⟩⟩
  · rw [closeOpenHire_of_some cause current, appendSummary_of_room _ room]
    split
    · rfl
    · rfl
  · obtain ⟨pre, post, a, b, history, length, appended⟩ := appendSummary_of_full (summaryOf h cause s.clock.time) full
    refine ⟨pre, post, a, b, history, length, ?_⟩
    rw [closeOpenHire_of_some cause current, appended]
    refine ⟨rfl, ?_, raise_flags_cases .historyMerged (.hire (some a.first)) _⟩
    rw [history] at full
    simp only [List.length_append, List.length_cons, raise_frame, List.length_nil] at full ⊢
    omega
  · have room : s.hires.history.length < 32 := by omega
    rw [closeOpenHire_of_some cause current, appendSummary_of_room _ room, if_pos near]
    exact raise_flags_cases .historyNearFull (.hire (some h.number)) _
  · rw [closeOpenHire_of_some cause current, appendSummary_of_room _ room, if_neg far]
  · rw [closeOpenHire_of_some cause current]
    simp [appendSummary_history]
  · rw [closeOpenHire_of_some cause current]
    simp [appendSummary_history]
  · rw [closeOpenHire_of_some cause current]
    simp [appendSummary_history]
  · exact addRecovery_none noA noB
  · exact ⟨_, addRecovery_some some', fun k => Eight.get_zip ..⟩

end Sys2Proof.Machine
end

section
/-! The tick, the sample of VBAT and the checkpoint comparison (sections 1.3, 9.1 and 10.2.2). -/

namespace Sys2Proof.Machine

set_option Elab.async false

open Sys2Proof Sys2Proof.Safety

/-! ## VBAT (R15, R16) -/

/-- A sample is the product's whole number of mV, or one of the two beside it (R15). -/
theorem vbatSample_cases (v : Nat) :
    vbatSample v = min (v * 30 / 1000) 32767 ∨
      v * 30 % 1000 ≠ 0 ∧ vbatSample v = min (v * 30 / 1000 + 1) 32767 := by
  by_cases whole : v * 30 % 1000 = 0
  · left
    simp [vbatSample, whole]
  · cases up : Config.vbatRoundsUp v with
    | false =>
      left
      simp [vbatSample, up]
    | true =>
      right
      simp [vbatSample, whole, up]

/-- The state in which a VBAT sample is tested (R15, R50). -/
def sampled (v : Nat) (s : State) : State :=
  { s with inputs.vbat := vbatSample v, starts.attempt := s.starts.attempt.map (Attempt.sample (vbatSample v)) }

theorem takeSample_of_sensing {v : Nat} {s : State} (sensing : s.sensing = true) :
    takeSample v s = testSupply (vbatSample v) (sampled v s) := by
  simp only [takeSample, sensing, if_true]
  rfl

/-- A tick step up to its sample. -/
def tickTimers (s : State) : State :=
  stepDoze (stepTimers (stepMeterTime (instantOver { s with inputs.tickUs := 0 })))

theorem tickStep_eq (v : Nat) (s : State) : tickStep v s = takeSample v (tickTimers s) := rfl

theorem stepDoze_frame (s : State) :
    (stepDoze s).inputs = s.inputs ∧ (stepDoze s).duty = s.duty ∧ (stepDoze s).starts = s.starts ∧
      (stepDoze s).table = s.table ∧ (stepDoze s).hires = s.hires ∧ (stepDoze s).config = s.config ∧
      (stepDoze s).store = s.store ∧ (stepDoze s).link = s.link ∧ (stepDoze s).clock.power = s.clock.power ∧
      (stepDoze s).clock.time = s.clock.time ∧ (stepDoze s).clock.phase = s.clock.phase ∧
      (stepDoze s).clock.sleep = s.clock.sleep ∧ (stepDoze s).pending = s.pending := by
  unfold stepDoze
  split
  · split
    · simp
    · simp
  · simp

theorem tickTimers_frame (s : State) :
    (tickTimers s).clock.power = s.clock.power ∧ (tickTimers s).inputs = { s.inputs with tickUs := 0 } ∧
      (tickTimers s).pending = s.pending := by
  obtain ⟨inputs, -, -, -, -, -, -, -, power, -, -, -, pending⟩ :=
    stepDoze_frame (stepTimers (stepMeterTime (instantOver { s with inputs.tickUs := 0 })))
  exact ⟨power, inputs, pending⟩

theorem sensing_of_power {s u : State} (power : u.clock.power = s.clock.power) : u.sensing = s.sensing := by
  simp only [State.sensing, State.awake, power]

theorem exec_meterTick {s : State} (v : Nat) (ticking : s.ticking = true) :
    exec (.meterTick v) s = .next (arbitrate (tickStep v (passTime (4000 - s.inputs.tickUs) s))) := by
  simp [exec, execMeterTick, whenDue, ticking, settled]

theorem exec_checkpointDue {s : State} (awake : s.awake = true) (due : s.clock.secondStep = true) :
    exec .checkpointDue s =
      .next (arbitrate
        (if s.checkpointPassed then askCommit { s with clock.secondStep := false }
        else { s with clock.secondStep := false })) := by
  simp only [exec, execCheckpointDue, whenDue, awake, due, Bool.and_self, if_true, settled, takeCheckpointTest]

/-- Settles O30: the sample's test, the tick that ends in it, and the comparison. -/
theorem supplyAndCheckpointAreTested : Obligations.SupplyAndCheckpointAreTested := by
  refine ⟨⟨fun s v => ⟨fun normal low => ?_, fun normal high => ?_, fun warning low => ?_, fun warning high => ?_⟩,
    fun s v ticking sensing => ?_⟩, fun s awake due => exec_checkpointDue awake due⟩
  · simp [testSupply, normal, low]
  · simp [testSupply, normal, Nat.not_lt.2 high]
  · simp [testSupply, warning, Nat.not_le.2 low]
  · simp [testSupply, warning, high]
  · obtain ⟨power, inputs, -⟩ := tickTimers_frame (passTime (4000 - s.inputs.tickUs) s)
    refine ⟨vbatSample v, sampled v (tickTimers (passTime (4000 - s.inputs.tickUs) s)), ?_, rfl, vbatSample_cases v, ?_⟩
    · rw [exec_meterTick v ticking, tickStep_eq, takeSample_of_sensing (by rw [sensing_of_power power, sensing])]
    · have supply := congrArg Inputs.supply inputs
      exact supply

end Sys2Proof.Machine
end

section
/-! What the events that fall due leave undisturbed: meter time, the tally phase, the supply readings, and that time runs
at all. -/

namespace Sys2Proof.Machine

set_option Elab.async false

open Sys2Proof Sys2Proof.Safety

/-- Meter time, the phase and the supply readings are as before, and time still runs. -/
structure Undisturbed (s t : State) : Prop where
  time : t.clock.time = s.clock.time
  phase : t.clock.phase = s.clock.phase
  vbat : t.inputs.vbat = s.inputs.vbat
  supply : t.inputs.supply = s.inputs.supply
  ticking : s.ticking = true → t.ticking = true

namespace Undisturbed

theorem refl (s : State) : Undisturbed s s := ⟨rfl, rfl, rfl, rfl, id⟩

theorem trans {s t u : State} (first : Undisturbed s t) (second : Undisturbed t u) : Undisturbed s u :=
  ⟨second.time.trans first.time, second.phase.trans first.phase, second.vbat.trans first.vbat,
    second.supply.trans first.supply, fun h => second.ticking (first.ticking h)⟩

theorem ticking_of_power {s t : State} (power : t.clock.power = s.clock.power) : t.ticking = s.ticking := by
  simp only [State.ticking, State.awake, power]

theorem ticking_of_sleep {s : State} (asleep : s.clock.power = .sleep) : s.ticking = true := by
  simp [State.ticking, asleep]

/-- An operation that leaves the clock and the inputs as they are. -/
theorem same {s t : State} (clock : t.clock = s.clock := by simp) (inputs : t.inputs = s.inputs := by simp) :
    Undisturbed s t :=
  ⟨by rw [clock], by rw [clock], by rw [inputs], by rw [inputs], by rw [ticking_of_power (by rw [clock])]; exact id⟩

/-- An operation that leaves the five readings as they are. -/
theorem of_readings {s t : State} (time : t.clock.time = s.clock.time := by simp)
    (phase : t.clock.phase = s.clock.phase := by simp) (vbat : t.inputs.vbat = s.inputs.vbat := by simp)
    (supply : t.inputs.supply = s.inputs.supply := by simp) (power : t.clock.power = s.clock.power := by simp) :
    Undisturbed s t :=
  ⟨time, phase, vbat, supply, by rw [ticking_of_power power]; exact id⟩

/-- An operation after which the part stands as before or sleeps. -/
theorem of_sleeps {s t : State} (power : t.clock.power = s.clock.power ∨ t.clock.power = .sleep)
    (time : t.clock.time = s.clock.time := by simp)
    (phase : t.clock.phase = s.clock.phase := by simp) (vbat : t.inputs.vbat = s.inputs.vbat := by simp)
    (supply : t.inputs.supply = s.inputs.supply := by simp) :
    Undisturbed s t :=
  ⟨time, phase, vbat, supply, fun h => power.elim (fun p => by rw [ticking_of_power p, h]) ticking_of_sleep⟩

theorem askCommit (s : State) : Undisturbed s (askCommit s) := of_sleeps (askCommit_power s)

theorem sleepTest (s : State) : Undisturbed s (sleepTest s) := of_sleeps (sleepTest_power s)

theorem arbitrate (s : State) : Undisturbed s (arbitrate s) := same

theorem cancelSleep (s : State) : Undisturbed s (cancelSleep s) := of_readings

theorem closeAttempt (c : AttemptClass) (s : State) : Undisturbed s (closeAttempt c s) := same

theorem engineIgnition (b : Bool) (s : State) : Undisturbed s (engineIgnition b s) := same

theorem engineCrank (b : Bool) (s : State) : Undisturbed s (engineCrank b s) := same

theorem clutchPedal (b : Bool) (s : State) : Undisturbed s (clutchPedal b s) := same

theorem autoClose (s : State) : Undisturbed s (autoClose s) := by
  unfold Machine.autoClose
  split
  · exact refl s
  · split
    · exact (same (t := raise .hireAutoClosed _ (closeOpenHire .ignitionOff s))).trans (askCommit _)
    · exact refl s

theorem powerIgnition (b : Bool) (s : State) : Undisturbed s (powerIgnition b s) := by
  cases b
  · exact ⟨by simp [Machine.powerIgnition], by simp [Machine.powerIgnition], by simp [Machine.powerIgnition],
      by simp [Machine.powerIgnition], fun _ => rfl⟩
  · exact ⟨by simp [Machine.powerIgnition], by simp [Machine.powerIgnition], by simp [Machine.powerIgnition],
      by simp [Machine.powerIgnition], fun _ => rfl⟩

theorem ignitionChanged (a b : Bool) (s : State) : Undisturbed s (ignitionChanged a b s) := by
  unfold Machine.ignitionChanged
  split
  · exact ((powerIgnition true s).trans (engineIgnition true _)).trans of_readings
  · unfold ignitionOff
    split
    · exact ((powerIgnition false s).trans (autoClose _)).trans (engineIgnition false _)
    · exact ((powerIgnition false s).trans (engineIgnition false _)).trans (autoClose _)

theorem takeLevelChange (l : SwitchLine) (b : Bool) (s : State) : Undisturbed s (takeLevelChange l b s) := by
  unfold Machine.takeLevelChange
  dsimp only
  split
  · have changed : Undisturbed s (withLevelChanged l s) := by
      cases l with
      | ign => exact ⟨rfl, rfl, rfl, rfl, id⟩
      | crk => exact ⟨rfl, rfl, rfl, rfl, id⟩
      | clu => exact ⟨rfl, rfl, rfl, rfl, id⟩
      | rvs => exact ⟨rfl, rfl, rfl, rfl, id⟩
    refine changed.trans (show Undisturbed (withLevelChanged l s) (levelReaches l _ b (withLevelChanged l s)) from ?_)
    cases l with
    | ign => exact ignitionChanged ..
    | crk =>
      have powered (t : State) : Undisturbed t (powerCrank t) :=
        (cancelSleep t).trans (of_readings (t := reloadDoze (Machine.cancelSleep t)))
      exact (powered _).trans (engineCrank _ _)
    | clu => exact clutchPedal ..
    | rvs => exact refl _
  · exact refl s

theorem takeDozeExpiry (s : State) : Undisturbed s (takeDozeExpiry s) := by
  unfold Machine.takeDozeExpiry
  dsimp only
  split
  · split
    · split
      · exact Undisturbed.trans (of_readings (s := s)) (askCommit _)
      · exact of_readings
    · exact of_readings
  · exact refl s

theorem takeCheckpointTest (s : State) : Undisturbed s (takeCheckpointTest s) := by
  unfold Machine.takeCheckpointTest
  dsimp only
  split
  · split
    · exact Undisturbed.trans (of_readings (s := s)) (askCommit _)
    · exact of_readings
  · exact refl s

theorem streamTally (s : State) : Undisturbed s (streamTally s) := by
  unfold Machine.streamTally
  split
  · exact refl s
  · dsimp only
    split
    · exact same
    · split
      · exact same
      · split
        · exact same
        · exact same

theorem takeTally (o : TallyOrder) (s : State) : Undisturbed s (takeTally o s) := by
  unfold Machine.takeTally
  split
  · have start : Undisturbed s { s with clock.tallyDue := false } := of_readings
    have metered (n : Nat) (t : State) : Undisturbed t (tallyMeters n (drainOut t)) := of_readings
    have charged (n : Nat) (t : State) : Undisturbed t (chargeTally n t) := same
    have tracked (t : State) : Undisturbed t (trackGear t) := same
    obtain ⟨gearFirst, reportFirst⟩ := o
    refine start.trans ?_
    cases gearFirst
    · cases reportFirst
      · exact (metered _ _).trans (((charged _ _).trans (tracked _)).trans (streamTally _))
      · exact (metered _ _).trans ((streamTally _).trans ((charged _ _).trans (tracked _)))
    · cases reportFirst
      · exact (metered _ _).trans (((tracked _).trans (charged _ _)).trans (streamTally _))
      · exact (metered _ _).trans ((streamTally _).trans ((tracked _).trans (charged _ _)))
  · exact refl s

end Undisturbed

theorem eventLaw_undisturbed (s : State) : EventLaw (Undisturbed s) where
  arbitrate h := h.trans (.arbitrate _)
  levelChange l b _ h := h.trans (.takeLevelChange l b _)
  confirm h := h.trans .same
  lock h := h.trans .same
  freshness h := h.trans .same
  doze h := h.trans (.takeDozeExpiry _)
  lampCheck h := h.trans .of_readings
  lampBoundary m _ h := h.trans .same
  tally o _ h := h.trans (.takeTally o _)
  checkpoint h := h.trans (.takeCheckpointTest _)
  stall sh b _ h := h.trans .of_readings
  pass us _ h := h.trans .of_readings

theorem Undisturbed.passTime (us : Nat) (s : State) : Undisturbed s (passTime us s) :=
  (eventLaw_undisturbed s).passTime us (.refl s)

end Sys2Proof.Machine
end

section
/-! Time that passes: quiet time, what is caught up, and the tick (sections 1.1 and 9.1). -/

namespace Sys2Proof.Machine

set_option Elab.async false

open Sys2Proof Sys2Proof.Safety

/-! ## Stalls overdue (R5) -/

/-- The time by which a channel is beyond its stall time. -/
def overdue (s : State) (c : Shaft) : Nat :=
  match (s.inputs.channel c).lastEdge with
  | some e =>
    if (s.inputs.channel c).st = .stalled then 0
    else min (s.inputs.captureUs - e) 16777215 - (s.config.armed.channel c).stallMs * 1000
  | none => 0

theorem stallAge_getD (s : State) (c : Shaft) :
    ((s.inputs.channel c).stallAge (s.config.armed.channel c) s.inputs.captureUs).getD 0 = overdue s c := by
  by_cases still : (s.inputs.channel c).st = .stalled
  · cases edge : (s.inputs.channel c).lastEdge <;> simp [Channel.stallAge, overdue, still, edge]
  · cases edge : (s.inputs.channel c).lastEdge with
    | none => simp [Channel.stallAge, overdue, still, edge, Channel.elapsed]
    | some e =>
      simp only [Channel.stallAge, overdue, still, edge, Channel.elapsed, if_false, Option.map_some]
      by_cases reached :
          (s.config.armed.channel c).stallUs ≤ min (s.inputs.captureUs - e) elapsedTop
      · rw [if_pos reached]
        rfl
      · rw [if_neg reached]
        exact (Nat.sub_eq_zero_of_le (Nat.le_of_lt (Nat.not_le.1 reached))).symm

theorem mostOverdue_eq (s : State) :
    mostOverdue s =
      if overdue s .eng = 0 ∧ overdue s .inp = 0 ∧ overdue s .out = 0 then none
      else if overdue s .inp ≤ overdue s .eng ∧ overdue s .out ≤ overdue s .eng then some .eng
      else if overdue s .out ≤ overdue s .inp then some .inp
      else some .out := by
  simp only [mostOverdue, stallAge_getD]

theorem mostOverdue_eq_none_iff (s : State) : mostOverdue s = none ↔ ∀ c, overdue s c = 0 := by
  rw [mostOverdue_eq]
  constructor
  · intro none' c
    split at none'
    · next zero =>
      cases c with
      | eng => exact zero.1
      | inp => exact zero.2.1
      | out => exact zero.2.2
    · split at none'
      · cases none'
      · split at none' <;> cases none'
  · intro zero
    rw [if_pos ⟨zero .eng, zero .inp, zero .out⟩]

theorem mostOverdue_le {s : State} {c : Shaft} (most : mostOverdue s = some c) (d : Shaft) :
    overdue s d ≤ overdue s c := by
  rw [mostOverdue_eq] at most
  split at most
  · cases most
  · split at most
    · cases most
      cases d <;> omega
    · split at most
      · cases most
        cases d <;> omega
      · cases most
        cases d <;> omega

/-! ## Quiet time -/

/-- The state after time has passed and nothing else has happened. -/
def advanced (us : Nat) (s : State) : State :=
  instantOver { s with inputs.captureUs := s.inputs.captureUs + us, inputs.tickUs := s.inputs.tickUs + us }

theorem catchUp_of_not_due {due : State → Bool} {take : State → State} {s : State} (idle : due s = false) :
    catchUp due take s = s := by
  simp [catchUp, idle]

theorem caughtUp_of_not_due (es : List ((State → Bool) × (State → State))) {s : State}
    (idle : ∀ e ∈ es, e.1 s = false) : es.foldl (fun t e => catchUp e.1 e.2 t) s = s := by
  induction es with
  | nil => rfl
  | cons e es ih =>
    rw [List.foldl_cons, catchUp_of_not_due (idle e List.mem_cons_self)]
    exact ih fun d hd => idle d (List.mem_cons_of_mem _ hd)

theorem takeDue_of_nothingDue {s : State} (quiet : nothingDue s = true) : takeDue s = s := by
  simp only [nothingDue, Bool.and_eq_true, Bool.not_eq_true', bne_iff_ne, ne_eq] at quiet
  refine caughtUp_of_not_due dueEvents ?_
  simp only [dueEvents, List.forall_mem_cons, List.not_mem_nil, false_implies, implies_true, and_true, levelChangeDue,
    Inputs.line, Bool.and_eq_false_iff, beq_eq_false_iff_ne, ne_eq]
  obtain ⟨⟨⟨⟨⟨⟨⟨⟨⟨⟨⟨⟨ign, crk⟩, clu⟩, rvs⟩, confirm⟩, lock⟩, fresh⟩, doze⟩, check⟩, lamp1⟩, lamp2⟩, tally⟩, second⟩ :=
    quiet
  exact ⟨.inl ign, .inl crk, .inl clu, .inl rvs, confirm, lock, fresh, doze, check, lamp1, lamp2, .inr tally,
    .inr second⟩

theorem catchStall_of_none {s : State} (none' : ∀ c, overdue s c = 0) : catchStall s = s :=
  catchUp_of_not_due (by rw [(mostOverdue_eq_none_iff s).2 none']; rfl)

theorem passTime_of_quiet {us : Nat} {s : State} (ticking : s.ticking = true) (quiet : nothingDue s = true)
    (early : ∀ c, overdue (advanced us s) c = 0) : passTime us s = if us = 0 then s else advanced us s := by
  unfold passTime
  by_cases none' : us = 0
  · rw [if_pos (.inl none'), if_pos none']
  · rw [if_neg (by simp [none', ticking]), if_neg none', takeDue_of_nothingDue quiet]
    show catchStall (catchStall (catchStall (advanced us s))) = advanced us s
    rw [catchStall_of_none early, catchStall_of_none early, catchStall_of_none early]

/-! ## What is caught up (R184, log 10) -/

/-- The next state of a command, or the state itself where a command answers none. -/
def ranOn (t : State) (c : Instr) : State :=
  match exec c t with
  | .next u => u
  | _ => t

/-- The commands of the events that can be due, in the order in which they are caught up (log 10). -/
def dueCommands : List Instr :=
  [.lineLevelChange .ign false, .lineLevelChange .crk false, .lineLevelChange .clu false, .lineLevelChange .rvs false,
    .confirmTimerExpiry, .lockTimerExpiry, .freshnessExpiry, .dozeTimerExpiry, .lampCheckExpiry,
    .blinkPhaseBoundary .lamp1, .blinkPhaseBoundary .lamp2, .tally ⟨true, false⟩, .checkpointDue]

/-- Each of the events is what its command takes when it is due. -/
theorem dueCommands_take :
    List.Forall₂ (fun c (e : (State → Bool) × (State → State)) => ∀ t, exec c t = whenDue (e.1 t) e.2 t)
      dueCommands dueEvents :=
  .cons (fun _ => rfl) (.cons (fun _ => rfl) (.cons (fun _ => rfl) (.cons (fun _ => rfl) (.cons (fun _ => rfl)
    (.cons (fun _ => rfl) (.cons (fun _ => rfl) (.cons (fun _ => rfl) (.cons (fun _ => rfl) (.cons (fun _ => rfl)
      (.cons (fun _ => rfl) (.cons (fun _ => rfl) (.cons (fun _ => rfl) .nil))))))))))))

theorem foldl_ranOn {cs : List Instr} {es : List ((State → Bool) × (State → State))}
    (take : List.Forall₂ (fun c e => ∀ t, exec c t = whenDue (e.1 t) e.2 t) cs es) (s : State) :
    cs.foldl ranOn s = es.foldl (fun t e => catchUp e.1 e.2 t) s := by
  induction take generalizing s with
  | nil => rfl
  | cons first _ ih =>
    rw [List.foldl_cons, List.foldl_cons, ← ih, ranOn, first, whenDue_catchUp]

theorem takeDue_eq_ranOn (s : State) : takeDue s = dueCommands.foldl ranOn s :=
  (foldl_ranOn dueCommands_take s).symm

theorem passTo_zero (s : State) : passTo 0 s = s := by
  simp [passTo, passTime]

/-- The stall longest overdue, taken as its command would. -/
def ranStall (t : State) : State :=
  match mostOverdue t with
  | none => t
  | some c => ranOn t (.channelStall c 0 false)

theorem catchStall_eq_ranStall {t : State} (ticking : t.ticking = true) : catchStall t = ranStall t := by
  cases most : mostOverdue t with
  | none => simp [catchStall, catchUp, ranStall, most]
  | some c =>
    simp [catchStall, catchUp, takeOverdueStall, ranStall, most, ranOn, exec, execChannelStall, whenDue, ticking,
      passTo_zero, settled]

theorem catchStall_ticking {t : State} (ticking : t.ticking = true) : (catchStall t).ticking = true :=
  ((eventLaw_undisturbed t).catchStall (.refl t)).ticking ticking

theorem passTime_eq_ran {us : Nat} {s : State} (ticking : s.ticking = true) (some' : 0 < us) :
    passTime us s = ranStall (ranStall (ranStall (advanced us (dueCommands.foldl ranOn s)))) := by
  rw [← takeDue_eq_ranOn]
  have first : (advanced us (takeDue s)).ticking = true :=
    ((eventLaw_undisturbed s).pass us ((eventLaw_undisturbed s).takeDue (.refl s))).ticking ticking
  have second := catchStall_ticking first
  have third := catchStall_ticking second
  rw [← catchStall_eq_ranStall first, ← catchStall_eq_ranStall second, ← catchStall_eq_ranStall third]
  unfold passTime
  rw [if_neg (by simp [some'.ne', ticking])]
  rfl

/-! ## The tick (R152, R153) -/

theorem tickTime_eq (t : MeterTime) :
    tickTime t =
      if t = ⟨4294967295, 249⟩ then t
      else if t.ticks < 249 then ⟨t.seconds, t.ticks + 1⟩
      else ⟨t.seconds + 1, 0⟩ := by
  obtain ⟨seconds, ticks⟩ := t
  have top : timeAtTop ⟨seconds, ticks⟩ = decide ((⟨seconds, ticks⟩ : MeterTime) = ⟨4294967295, 249⟩) := by
    simp [timeAtTop, top32, Bool.beq_eq_decide_eq]
  rw [tickTime, top]
  by_cases atTop : (⟨seconds, ticks⟩ : MeterTime) = ⟨4294967295, 249⟩
  · simp [atTop]
  · by_cases wraps : ticks < 249
    · simp [atTop, wraps, Nat.not_le.2 wraps]
    · simp [atTop, wraps, Nat.not_lt.1 wraps]

theorem testSupply_clock (v : Nat) (s : State) :
    (testSupply v s).clock.time = s.clock.time ∧ (testSupply v s).clock.phase = s.clock.phase ∧
      (testSupply v s).pending = s.pending := by
  unfold testSupply
  split
  · split
    · simp
    · exact ⟨rfl, rfl, rfl⟩
  · split
    · exact ⟨rfl, rfl, rfl⟩
    · exact ⟨rfl, rfl, rfl⟩

theorem takeSample_clock (v : Nat) (s : State) :
    (takeSample v s).clock.time = s.clock.time ∧ (takeSample v s).clock.phase = s.clock.phase ∧
      (takeSample v s).pending = s.pending := by
  cases sensing : s.sensing with
  | true =>
    rw [takeSample_of_sensing sensing]
    exact testSupply_clock ..
  | false =>
    rw [takeSample, sensing]
    exact ⟨rfl, rfl, rfl⟩

theorem tickTimers_clock (s : State) :
    (tickTimers s).clock.time = tickTime s.clock.time ∧
      (tickTimers s).clock.phase = (if s.clock.phase < 24 then s.clock.phase + 1 else 0) := by
  obtain ⟨-, -, -, -, -, -, -, -, -, time, phase, -⟩ :=
    stepDoze_frame (stepTimers (stepMeterTime (instantOver { s with inputs.tickUs := 0 })))
  refine ⟨time, phase.trans ?_⟩
  by_cases wraps : s.clock.phase < 24
  · simp [stepTimers, stepMeterTime, instantOver, wraps]
  · simp [stepTimers, stepMeterTime, instantOver, wraps, Nat.not_lt.1 wraps]

/-- What `overdue` comes to once quiet time has passed. -/
theorem overdue_advanced {us : Nat} {s : State} {c : Shaft}
    (early : (s.inputs.channel c).st ≠ .stalled → ∀ e, (s.inputs.channel c).lastEdge = some e →
      min (s.inputs.captureUs + us - e) 16777215 ≤ (s.config.armed.channel c).stallMs * 1000) :
    overdue (advanced us s) c = 0 := by
  have channel : (advanced us s).inputs.channel c = s.inputs.channel c := by cases c <;> rfl
  rw [overdue, channel]
  cases edge : (s.inputs.channel c).lastEdge with
  | none => rfl
  | some e =>
    by_cases still : (s.inputs.channel c).st = .stalled
    · exact if_pos still
    · exact (if_neg still).trans (Nat.sub_eq_zero_of_le (early still e edge))

/-- Settles O20: quiet time, what is caught up and in which order, and the tick on meter time and phase. -/
theorem timePasses : Obligations.TimePasses := by
  refine ⟨fun s us ticking quiet early => ?_, ⟨fun s us ticking some' => ?_,
    fun s => ⟨mostOverdue_eq_none_iff s, fun c most d => mostOverdue_le most d⟩⟩, fun s v ticking => ?_⟩
  · have passed := passTime_of_quiet ticking quiet fun c => overdue_advanced (early c)
    rw [passTo, passed]
    by_cases gone : min us 3999 ≤ s.inputs.tickUs
    · rw [if_pos gone, if_pos (by omega)]
    · have sum : s.inputs.tickUs + (min us 3999 - s.inputs.tickUs) = min us 3999 := by omega
      rw [if_neg gone, if_neg (by omega), advanced, sum]
      rfl
  · intro run stall d
    have runs : run = ranOn := rfl
    have stalls : stall = ranStall := rfl
    have caught : d = dueCommands.foldl run s := rfl
    clear_value d stall run
    rw [passTime_eq_ran ticking some', stalls, caught, runs]
    generalize dueCommands.foldl ranOn s = u
    rfl
  · refine ⟨_, exec_meterTick v ticking, ?_⟩
    have quiet := Undisturbed.passTime (4000 - s.inputs.tickUs) s
    have pending := (Steady.passTime (4000 - s.inputs.tickUs) s).pending
    generalize passTime (4000 - s.inputs.tickUs) s = u at quiet pending ⊢
    obtain ⟨time, phase, waits⟩ := takeSample_clock v (tickTimers u)
    obtain ⟨time', phase'⟩ := tickTimers_clock u
    obtain ⟨-, -, waits'⟩ := tickTimers_frame u
    simp only [arbitrate_frame, tickStep_eq, time, phase, waits, time', phase', waits', quiet.time, quiet.phase, pending,
      tickTime_eq, and_self]

end Sys2Proof.Machine
end

section
/-! A quiet tick, edges and stalls (sections 1.1 and 9.1). -/

namespace Sys2Proof.Machine

set_option Elab.async false

open Sys2Proof Sys2Proof.Safety

/-! ## A quiet tick -/

/-- The doze timer runs (R155). -/
def dozeRuns (s : State) : Bool := s.clock.power == .doze && !s.clock.sleep.any (·.timerHeld)

theorem dozeHeld_eq (s : State) : s.dozeHeld = s.clock.sleep.any (·.timerHeld) := by
  cases h : s.clock.sleep <;> simp [State.dozeHeld, h]

theorem stepDoze_eq {s : State} (idle : s.clock.dozeDue = false) :
    stepDoze s =
      { s with
        clock.doze := if dozeRuns s then s.clock.doze.map (· - 1) else s.clock.doze,
        clock.dozeDue := dozeRuns s && s.clock.doze == some 1 } := by
  have stands : ({ s with clock.doze := s.clock.doze, clock.dozeDue := false } : State) = s := by rw [← idle]
  by_cases dozing : s.clock.power = .doze
  · cases held : s.clock.sleep.any (·.timerHeld) with
    | true =>
      have runs : dozeRuns s = false := by simp [dozeRuns, held]
      rw [runs]
      refine Eq.trans ?_ stands.symm
      rw [stepDoze, dozing]
      match s.clock.doze with
      | none => rfl
      | some 0 => rfl
      | some (n + 1) => exact if_pos ((dozeHeld_eq s).trans held)
    | false =>
      have runs : dozeRuns s = true := by simp [dozeRuns, dozing, held]
      rw [runs, stepDoze, dozing]
      cases timer : s.clock.doze with
      | none => exact stands.symm.trans (by rw [timer]; rfl)
      | some m =>
        cases m with
        | zero => exact stands.symm.trans (by rw [timer]; rfl)
        | succ n =>
          have free : ¬ s.dozeHeld = true := by simp [dozeHeld_eq, held]
          simp only [if_neg free]
          simp only [dozing, if_true, Option.map_some, Nat.add_sub_cancel, Bool.true_and]
          cases n
          · rfl
          · rfl
  · have runs : dozeRuns s = false := by simp [dozeRuns, dozing]
    rw [runs]
    refine Eq.trans ?_ stands.symm
    rw [stepDoze]
    cases power : s.clock.power <;> simp_all

theorem stepMeterTime_eq {s : State} (noTally : s.clock.tallyDue = false) (noStep : s.clock.secondStep = false) :
    stepMeterTime s =
      { s with
        clock.time := tickTime s.clock.time, clock.phase := if s.clock.phase < 24 then s.clock.phase + 1 else 0,
        clock.tallyDue := s.awake && decide (24 ≤ s.clock.phase),
        clock.secondStep := s.awake && (tickTime s.clock.time).seconds != s.clock.time.seconds } := by
  have phase : (if decide (s.clock.phase ≥ 24) = true then 0 else s.clock.phase + 1) =
      if s.clock.phase < 24 then s.clock.phase + 1 else 0 := by
    by_cases low : s.clock.phase < 24
    · simp [low, Nat.not_le.2 low]
    · simp [low, Nat.not_lt.1 low]
  simp only [stepMeterTime, noTally, noStep, Bool.false_or, phase, Bool.and_comm (decide _) s.awake, ge_iff_le]

/-- A tick of a lamp, its period compared the other way round. -/
theorem tickLamp_eq (c : LampSettings) (l : Lamp) :
    tickLamp c l =
      if l.mode = .blink then { l with phase := if c.period * 5 ≤ l.phase + 1 then 0 else l.phase + 1 } else l := rfl

/-- The present instant over, in a sleep pending (R155). -/
def SleepPending.stale (p : SleepPending) : SleepPending := { p with justSet := false }

/-- The timers after a tick with nothing due before it. -/
def counted (s : State) : State :=
  { s with
    inputs.tickUs := 0,
    duty.confirmTimer := s.duty.confirmTimer.map (· + 1), duty.lockTimer := s.duty.lockTimer.map (· + 1),
    duty.freshTimer := s.duty.freshTimer - 1,
    starts.attempt := s.starts.attempt.map Attempt.tick,
    table.lamp1 := tickLamp s.config.armed.lamp1 s.table.lamp1,
    table.lamp2 := tickLamp s.config.armed.lamp2 s.table.lamp2,
    clock.time := tickTime s.clock.time, clock.phase := if s.clock.phase < 24 then s.clock.phase + 1 else 0,
    clock.tallyDue := s.awake && decide (24 ≤ s.clock.phase),
    clock.secondStep := s.awake && (tickTime s.clock.time).seconds != s.clock.time.seconds,
    clock.lampCheck := s.clock.lampCheck.map (· - 1),
    clock.doze := if dozeRuns s then s.clock.doze.map (· - 1) else s.clock.doze,
    clock.dozeDue := dozeRuns s && s.clock.doze == some 1,
    clock.sleep := s.clock.sleep.map SleepPending.stale }

theorem dozeRuns_of_stale {s u : State} (power : u.clock.power = s.clock.power)
    (sleep : u.clock.sleep = s.clock.sleep.map SleepPending.stale) : dozeRuns u = dozeRuns s := by
  rw [dozeRuns, dozeRuns, power, sleep]
  cases s.clock.sleep <;> rfl

theorem tickTimers_eq {s : State} (noTally : s.clock.tallyDue = false) (noStep : s.clock.secondStep = false)
    (idle : s.clock.dozeDue = false) : tickTimers s = counted s := by
  have stepped := stepMeterTime_eq (s := instantOver { s with inputs.tickUs := 0 }) noTally noStep
  have runs : dozeRuns (stepTimers (stepMeterTime (instantOver { s with inputs.tickUs := 0 }))) = dozeRuns s :=
    dozeRuns_of_stale rfl rfl
  have idle' : (stepTimers (stepMeterTime (instantOver { s with inputs.tickUs := 0 }))).clock.dozeDue = false := idle
  rw [tickTimers, stepDoze_eq idle', runs, stepped]
  rfl

/-- The state after a quiet tick, up to its sample: the capture timer has reached the tick. -/
def quietTicked (s : State) : State :=
  { counted s with inputs.captureUs := s.inputs.captureUs + (4000 - s.inputs.tickUs) }

theorem counted_advanced (us : Nat) (s : State) :
    counted (advanced us s) = { counted s with inputs.captureUs := s.inputs.captureUs + us } := by
  have runs : dozeRuns (advanced us s) = dozeRuns s := dozeRuns_of_stale rfl rfl
  have sleep : (advanced us s).clock.sleep.map SleepPending.stale = s.clock.sleep.map SleepPending.stale := by
    show (s.clock.sleep.map SleepPending.stale).map SleepPending.stale = _
    cases s.clock.sleep <;> rfl
  unfold counted
  rw [runs, sleep]
  rfl

theorem tickTimers_passTime {s : State} (ticking : s.ticking = true) (quiet : nothingDue s = true)
    (still : shaftsStill s = true) : tickTimers (passTime (4000 - s.inputs.tickUs) s) = quietTicked s := by
  have idle (c : Shaft) : (s.inputs.channel c).st = .stalled := by
    simp only [shaftsStill, Bool.and_eq_true, beq_iff_eq] at still
    obtain ⟨⟨eng, inp⟩, out⟩ := still
    cases c with
    | eng => exact eng
    | inp => exact inp
    | out => exact out
  have due := quiet
  simp only [nothingDue, Bool.and_eq_true, Bool.not_eq_true'] at due
  obtain ⟨⟨⟨⟨⟨⟨-, noDoze⟩, -⟩, -⟩, -⟩, noTally⟩, noStep⟩ := due
  rw [passTime_of_quiet ticking quiet fun c => overdue_advanced fun turns => absurd (idle c) turns]
  by_cases none' : 4000 - s.inputs.tickUs = 0
  · rw [if_pos none', tickTimers_eq noTally noStep noDoze, quietTicked, none']
    rfl
  · rw [if_neg none', tickTimers_eq (by exact noTally) (by exact noStep) (by exact noDoze), counted_advanced]
    rfl

/-- Settles O29: the tick of a quiet state, with its sample where the part senses. -/
theorem tickCountsTheTimers : Obligations.TickCountsTheTimers := by
  intro s v ticking quiet still
  have tick := exec_meterTick v ticking
  rw [tickStep_eq, tickTimers_passTime ticking quiet still] at tick
  have power : (quietTicked s).clock.power = s.clock.power := rfl
  refine ⟨fun deaf => ?_, fun sensing => ⟨vbatSample v, vbatSample_cases v, ?_⟩⟩
  · have unsampled : takeSample v (quietTicked s) = quietTicked s := by
      rw [takeSample, sensing_of_power power, deaf]
      rfl
    rw [unsampled, quietTicked, counted, tickTime_eq] at tick
    exact tick
  · rw [takeSample_of_sensing (by rw [sensing_of_power power, sensing]), sampled, quietTicked, counted,
      tickTime_eq] at tick
    exact tick

end Sys2Proof.Machine
end

section
/-! Edges and stalls (section 1.1). -/

namespace Sys2Proof.Machine

set_option Elab.async false

open Sys2Proof Sys2Proof.Safety

/-! ## What an edge finds (R2, R3) -/

theorem exec_pulseEdge {s : State} (c : Shaft) (tr : Transition) (us : Nat) (first : Bool) (ticking : s.ticking = true) :
    exec (.pulseEdge c tr us first) s =
      .next (arbitrate
        (if ((passTo us s).config.armed.channel c).sees tr && takesEdges c (passTo us s) then
          takeEdge c first (passTo us s)
        else passTo us s)) := by
  simp only [exec, execPulseEdge, whenDue, ticking, if_true, settled, edgeAt]

theorem accepts_eq (cfg : ChannelSettings) (now : Nat) (c : Channel) :
    c.accepts cfg now =
      match c.lastEdge with
      | none => true
      | some e => decide (cfg.minInterval ≤ min (now - e) 16777215) := by
  cases edge : c.lastEdge <;> simp [Channel.accepts, Channel.elapsed, edge, elapsedTop]

theorem accepts_iff (cfg : ChannelSettings) (now : Nat) (c : Channel) :
    c.accepts cfg now = true ↔ ∀ e, c.lastEdge = some e → cfg.minInterval ≤ min (now - e) 16777215 := by
  rw [accepts_eq]
  cases edge : c.lastEdge <;> simp

theorem not_sensing_of_sleep {s : State} (asleep : s.clock.power = .sleep) : s.sensing = false := by
  simp [State.sensing, State.awake, asleep]

/-- Settles O21: an edge that is not seen, and an OUT edge in SLEEP. -/
theorem edgesAreRejectedOrCountedAsleep : Obligations.EdgesAreRejectedOrCountedAsleep := by
  refine ⟨fun s now c tr us first ticking is rejected => ?_, fun s now c tr us first ticking is asleep =>
    ⟨fun other => ?_, fun sees accepts => ?_⟩⟩
  · rw [exec_pulseEdge c tr us first ticking, ← is]
    rcases rejected with ⟨edge, falling⟩ | ⟨edge, rising⟩ | ⟨e, last, early⟩
    · simp [ChannelSettings.sees, edge, falling]
    · simp [ChannelSettings.sees, edge, rising]
    · have rejects : (now.inputs.channel c).accepts (now.config.armed.channel c) now.inputs.captureUs = false := by
        rw [accepts_eq, last]
        exact decide_eq_false (Nat.not_le.2 early)
      have same : takeEdge c first now = now := by simp only [takeEdge, rejects, Bool.false_eq_true, if_false]
      rw [same, ite_self]
  · rw [exec_pulseEdge c tr us first ticking, ← is]
    have deaf : takesEdges c now = false := by simp [takesEdges, not_sensing_of_sleep asleep, other]
    rw [deaf, Bool.and_false, if_neg Bool.false_ne_true, arbitrate_of_not_awake (not_awake_of_sleep asleep)]
  · rw [exec_pulseEdge .out tr us first ticking, ← is]
    have takes : takesEdges .out now = true := by simp [takesEdges, asleep]
    have sees' : (now.config.armed.channel .out).sees tr = true := sees
    have accepts' : (now.inputs.channel .out).accepts (now.config.armed.channel .out) now.inputs.captureUs = true :=
      accepts
    rw [sees', takes, Bool.and_self, if_pos rfl, takeEdge, if_pos accepts', not_sensing_of_sleep asleep,
      if_neg Bool.false_ne_true, acceptAsleep]
    cases wakes : now.config.armed.timing.wakeOnShaft with
    | false =>
      rw [if_neg Bool.false_ne_true, arbitrate_of_not_awake (by exact not_awake_of_sleep asleep), Bool.or_false]
      rfl
    | true =>
      rw [if_pos rfl, arbitrate_of_not_awake (by exact not_awake_of_sleep asleep), Bool.or_true]
      rfl

/-! ## What an accepted edge does (R4, R6, R7) -/

theorem ep_eq (c : ChannelSettings) : c.ep = if c.edge = .both then 2 * c.ppr else c.ppr := by
  cases edge : c.edge <;> simp [ChannelSettings.ep, edge]

theorem channelEdge_eq {cfg : ChannelSettings} {now : Nat} {c : Channel}
    (last : c.st ≠ .stalled → c.lastEdge.isSome = true) :
    c.edge cfg now =
      if c.st = .stalled then ⟨.starting, some now, none, 0⟩
      else
        ⟨.turning, some now, some (max 1 (min (now - c.lastEdge.getD 0) 16777215)),
          cfg.speedOf (max 1 (min (now - c.lastEdge.getD 0) 16777215))⟩ := by
  cases st : c.st with
  | stalled => cases edge : c.lastEdge <;> simp [Channel.edge, st]
  | starting =>
    obtain ⟨e, edge⟩ := Option.isSome_iff_exists.1 (last (by simp [st]))
    simp [Channel.edge, Channel.elapsed, st, edge, elapsedTop]
  | turning =>
    obtain ⟨e, edge⟩ := Option.isSome_iff_exists.1 (last (by simp [st]))
    simp [Channel.edge, Channel.elapsed, st, edge, elapsedTop]

theorem putChannel_eq (c : Shaft) (v : Channel) (first : Bool) (s : State) :
    putChannel c v first s =
      if v.speed = (s.inputs.channel c).speed then { s with inputs := s.inputs.setChannel c v }
      else speedChanged c first { s with inputs := s.inputs.setChannel c v } := by
  by_cases same : v.speed = (s.inputs.channel c).speed
  · rw [if_pos same, putChannel, if_pos same.symm]
  · rw [if_neg same, putChannel, if_neg (Ne.symm same)]

theorem putChannel_eng (v : Channel) (first : Bool) (s : State) :
    putChannel .eng v first s =
      let put : State := { s with inputs := s.inputs.setChannel .eng v }
      if v.speed = (s.inputs.channel .eng).speed ∨ s.awake = false then put
      else if first then engineSpeed (clutchSpeed put) else clutchSpeed (engineSpeed put) := by
  rw [putChannel_eq]
  by_cases same : v.speed = (s.inputs.channel .eng).speed
  · rw [if_pos same, if_pos (.inl same)]
  · rw [if_neg same, speedChanged]
    cases awake : s.awake with
    | false => exact (if_neg (by simp [State.awake] at awake ⊢; exact awake)).trans (if_pos (.inr rfl)).symm
    | true =>
      refine (if_pos awake).trans (if_neg ?_).symm
      rintro (h | h)
      · exact same h
      · cases h

theorem putChannel_inp (v : Channel) (first : Bool) (s : State) :
    putChannel .inp v first s =
      let put : State := { s with inputs := s.inputs.setChannel .inp v }
      if v.speed = (s.inputs.channel .inp).speed ∨ s.awake = false then put else clutchSpeed put := by
  rw [putChannel_eq]
  by_cases same : v.speed = (s.inputs.channel .inp).speed
  · rw [if_pos same, if_pos (.inl same)]
  · rw [if_neg same, speedChanged]
    cases awake : s.awake with
    | false => exact (if_neg (by simp [State.awake] at awake ⊢; exact awake)).trans (if_pos (.inr rfl)).symm
    | true =>
      refine (if_pos awake).trans (if_neg ?_).symm
      rintro (h | h)
      · exact same h
      · cases h

theorem putChannel_out (v : Channel) (first : Bool) (s : State) :
    putChannel .out v first s = { s with inputs := s.inputs.setChannel .out v } := by
  rw [putChannel_eq, speedChanged]
  simp only [ite_self]

theorem dozeEdge_eq (s : State) :
    dozeEdge s =
      if s.clock.sleep.any (·.justSet) then cancelSleep s
      else if s.clock.power = .doze then
        { s with clock.doze := some (s.config.armed.timing.dozeS * 250), clock.dozeDue := false }
      else s := by
  cases pending : s.clock.sleep with
  | none => simp [dozeEdge, pending, reloadDoze, loadDoze]
  | some p => simp [dozeEdge, pending, reloadDoze, loadDoze]

theorem countRevolution_eq (i : Inputs) (ep : Nat) :
    countRevolution i ep =
      { i with
        outRemainder := if ep ≤ i.outRemainder + 1 then 0 else i.outRemainder + 1,
        outPending := if ep ≤ i.outRemainder + 1 then min (i.outPending + 1) 16777215 else i.outPending } := by
  by_cases whole : ep ≤ i.outRemainder + 1
  · simp [countRevolution, whole]
  · simp [countRevolution, whole]

/-- Settles O22: the accepted edge, shaft by shaft. -/
theorem edgesAreAccepted : Obligations.EdgesAreAccepted := by
  intro s now c tr us first ticking is sensing sees interval last old cfg ep period new put quiet
  have accepts : (now.inputs.channel c).accepts (now.config.armed.channel c) now.inputs.captureUs = true :=
    (accepts_iff ..).2 interval
  have takes : takesEdges c now = true := by simp [takesEdges, sensing]
  have edge : (now.inputs.channel c).edge (now.config.armed.channel c) now.inputs.captureUs = new := by
    rw [channelEdge_eq last]
    simp only [ChannelSettings.speedOf, ep_eq]
    rfl
  have taken : exec (.pulseEdge c tr us first) s = .next (arbitrate (acceptAwake c first now)) := by
    rw [exec_pulseEdge c tr us first ticking, ← is, sees, takes, Bool.and_self, if_pos rfl, takeEdge, if_pos accepts,
      if_pos sensing]
  refine ⟨?_, ?_, ?_⟩
  · rintro rfl
    refine taken.trans (congrArg (fun t => Host.Outcome.next (arbitrate t)) ?_)
    refine (congrArg (fun v => putChannel .eng v first now) edge).trans ?_
    rw [putChannel_eng]
  · rintro rfl
    refine taken.trans (congrArg (fun t => Host.Outcome.next (arbitrate t)) ?_)
    refine (congrArg (fun v => putChannel .inp v first now) edge).trans ?_
    rw [putChannel_inp]
  · rintro rfl
    refine taken.trans (congrArg (fun t => Host.Outcome.next (arbitrate t)) ?_)
    have counted : acceptAwake .out first now =
        dozeEdge { put with inputs := countRevolution put.inputs now.config.armed.chOut.ep } := by
      refine (congrArg (fun v => dozeEdge (countEdge .out (putChannel .out v first now))) edge).trans ?_
      rw [putChannel_out]
      rfl
    rw [counted, countRevolution_eq, ep_eq, dozeEdge_eq]
    rfl

/-! ## Stalls (R5) -/

theorem exec_channelStall {s : State} (c : Shaft) (us : Nat) (first : Bool) (ticking : s.ticking = true) :
    exec (.channelStall c us first) s = .next (arbitrate (takeStall c first (passTo us s))) := by
  simp only [exec, execChannelStall, whenDue, ticking, if_true, settled]

theorem stallAge_eq {cfg : ChannelSettings} {now e : Nat} {c : Channel} (last : c.lastEdge = some e) :
    c.stallAge cfg now =
      if c.st = .stalled ∨ min (now - e) 16777215 < cfg.stallMs * 1000 then none
      else some (min (now - e) 16777215 - cfg.stallMs * 1000) := by
  by_cases still : c.st = .stalled
  · rw [if_pos (.inl still), Channel.stallAge, if_pos still]
  · simp only [Channel.stallAge, if_neg still, Channel.elapsed, last, Option.map_some]
    by_cases reached : cfg.stallUs ≤ min (now - e) elapsedTop
    · have late : ¬ (c.st = .stalled ∨ min (now - e) 16777215 < cfg.stallMs * 1000) := by
        rintro (h | h)
        · exact still h
        · exact Nat.not_lt.2 reached h
      rw [if_pos reached, if_neg late]
      rfl
    · rw [if_neg reached, if_pos (.inr (Nat.not_le.1 reached))]

/-- Settles O23: the stall at its time, and nothing before it. -/
theorem channelsStall : Obligations.ChannelsStall := by
  intro s now c us first e ticking is last
  refine ⟨fun turns sensing reached => ?_, fun early => ?_⟩
  · have taken : takeStall c first now = putChannel c ⟨.stalled, some e, none, 0⟩ first now := by
      have late : ¬ ((now.inputs.channel c).st = .stalled ∨
          min (now.inputs.captureUs - e) 16777215 < (now.config.armed.channel c).stallMs * 1000) := by
        rintro (h | h)
        · exact turns h
        · exact Nat.not_lt.2 reached h
      simp only [takeStall, stallAge_eq last, if_neg late, sensing, if_true, Channel.stall, last]
    refine ⟨by rw [exec_channelStall c us first ticking, ← is], ?_⟩
    rw [taken]
    cases c with
    | eng =>
      have quiet : (0 = (now.inputs.channel .eng).speed ∨ now.awake = false) ↔
          (now.inputs.channel .eng).speed = 0 ∨ now.awake = false ∨ Shaft.eng = .out :=
        ⟨fun h => h.imp Eq.symm .inl, fun h => h.imp Eq.symm fun h => h.resolve_right (by decide)⟩
      rw [putChannel_eng]
      exact if_congr quiet rfl rfl
    | inp =>
      have quiet : (0 = (now.inputs.channel .inp).speed ∨ now.awake = false) ↔
          (now.inputs.channel .inp).speed = 0 ∨ now.awake = false ∨ Shaft.inp = .out :=
        ⟨fun h => h.imp Eq.symm .inl, fun h => h.imp Eq.symm fun h => h.resolve_right (by decide)⟩
      rw [putChannel_inp]
      exact if_congr quiet rfl rfl
    | out =>
      rw [putChannel_out]
      exact (if_pos (.inr (.inr rfl))).symm
  · have same : takeStall c first now = now := by
      simp only [takeStall, stallAge_eq last, if_pos early]
    exact ⟨by rw [exec_channelStall c us first ticking, ← is, same], same⟩

end Sys2Proof.Machine
end

section
/-! The lamps (section 5.3). -/

namespace Sys2Proof.Machine

set_option Elab.async false

open Sys2Proof Sys2Proof.Safety

/-! ## Forming (R94, R96, R98) -/

theorem anySlot_iff (c : LampSettings) (slots : Eight SlotMeters) (p : SlotMeters → Bool) :
    c.anySlot slots p = true ↔ ∃ k, c.map.get k = true ∧ p (slots.get k) = true := by
  simp only [LampSettings.anySlot, Eight.toList_eq_ofFn, List.any_eq_true, List.mem_ofFn, id]
  constructor
  · rintro ⟨b, ⟨k, rfl⟩, hit⟩
    exact ⟨k, by simpa using hit⟩
  · rintro ⟨k, mapped, hit⟩
    exact ⟨_, ⟨k, rfl⟩, by simp [mapped, hit]⟩

theorem formLamp_eq (c : LampSettings) (slots : Eight SlotMeters) (l : Lamp) :
    formLamp c slots l =
      if l.mode = .check then l
      else if c.anySlot slots (·.due) then ⟨.steady, 0, true⟩
      else if c.anySlot slots (·.advisory) then
        (if l.mode = .blink then l else ⟨.blink, 0, decide (0 < c.duty * 5)⟩)
      else ⟨.dark, 0, false⟩ := rfl

theorem formLamps_of_asleep {s : State} (asleep : s.awake = false) : formLamps s = s := by
  rw [formLamps, asleep, if_neg Bool.false_ne_true]

theorem formLamps_lamp {s : State} (awake : s.awake = true) (m : LampId) :
    (formLamps s).table.lamp m = formLamp (s.config.armed.lamp m) s.table.slots (s.table.lamp m) := by
  rw [formLamps, awake, if_pos rfl]
  cases m <;> rfl

theorem formLamps_table (s : State) :
    { formLamps s with table := s.table } = s ∧ (formLamps s).table.slots = s.table.slots := by
  cases awake : s.awake <;> simp [formLamps, awake]

theorem rearmLamps_of_asleep {s : State} (old : Settings) (asleep : s.awake = false) : rearmLamps old s = s := by
  rw [rearmLamps, asleep, if_neg Bool.false_ne_true]

theorem rearmLamps_lamp {s : State} (old : Settings) (awake : s.awake = true) (m : LampId) :
    (rearmLamps old s).table.lamp m =
      rearmLamp (old.lamp m) (s.config.armed.lamp m) s.table.slots (s.table.lamp m) := by
  rw [rearmLamps, awake, if_pos rfl]
  cases m <;> rfl

theorem rearmLamps_table (old : Settings) (s : State) :
    { rearmLamps old s with table := s.table } = s ∧ (rearmLamps old s).table.slots = s.table.slots := by
  cases awake : s.awake <;> simp [rearmLamps, awake]

theorem rearmLamp_eq (old new : LampSettings) (slots : Eight SlotMeters) (l : Lamp) :
    rearmLamp old new slots l =
      let f := formLamp new slots l
      let phase := if new.period * 5 ≤ f.phase then 0 else f.phase
      if old ≠ new ∧ f.mode = .blink then ⟨.blink, phase, decide (phase < new.duty * 5)⟩ else f := by
  by_cases same : old = new
  · simp [rearmLamp, same]
  · by_cases blinks : (formLamp new slots l).mode = .blink
    · simp [rearmLamp, same, blinks, LampSettings.litAt]
    · simp [rearmLamp, same, blinks]

/-! ## The lamp check and the blink boundary (R96, R97) -/

theorem exec_lampCheckExpiry {s : State} (due : s.clock.lampCheck = some 0) :
    exec .lampCheckExpiry s = .next (arbitrate (formLampsAfresh { s with clock.lampCheck := none })) := by
  simp [exec, execLampCheckExpiry, whenDue, due, settled, takeLampCheckEnd]

theorem exec_blinkPhaseBoundary {s : State} {m : LampId}
    (due : boundaryDue (s.config.armed.lamp m) (s.table.lamp m) = true) :
    exec (.blinkPhaseBoundary m) s = .next (arbitrate (takeLampBoundary m s)) := by
  simp [exec, execBlinkPhaseBoundary, whenDue, due, settled]

theorem takeLampBoundary_lamp (m n : LampId) (s : State) :
    (takeLampBoundary m s).table.lamp n =
      if n = m then takeBoundary (s.config.armed.lamp m) (s.table.lamp m) else s.table.lamp n := by
  cases m <;> cases n <;> rfl

/-! ## The pins (R95) -/

theorem lampHigh_of_ticking {s : State} (ticking : s.ticking = true) (m : LampId) :
    s.lampHigh m = true ↔
      (s.config.armed.lamp m).polarity = .activeHigh ∧ (s.table.lamp m).lit = true ∨
        (s.config.armed.lamp m).polarity = .activeLow ∧ (s.table.lamp m).lit = false := by
  rw [State.lampHigh, ticking, Bool.true_and]
  cases (s.config.armed.lamp m).polarity <;> simp [corrected]

theorem lampHigh_of_dark {s : State} (ticking : s.ticking = true) (m : LampId) (dark : (s.table.lamp m).lit = false) :
    s.lampHigh m = true ↔ (s.config.armed.lamp m).polarity = .activeLow := by
  rw [lampHigh_of_ticking ticking, dark]
  simp

theorem endRestore_dark (high : Bool) (s : State) :
    (endRestore high s).ticking = true ∧ ∀ m, ((endRestore high s).table.lamp m).lit = false := by
  rcases endRestore_cases high s with is | ⟨a, i, -, is⟩
  · rw [is]
    exact ⟨rfl, fun m => by cases m <;> rfl⟩
  · rw [is]
    exact ⟨rfl, fun m => by cases m <;> rfl⟩

theorem lampsAreFormed (s : State) (m : LampId) :
    (s.awake = false → formLamps s = s) ∧
    (s.awake = true →
      (formLamps s).table.lamp m =
        (if (s.table.lamp m).mode = .check then s.table.lamp m
        else if (s.config.armed.lamp m).anySlot s.table.slots (·.due) then ⟨.steady, 0, true⟩
        else if (s.config.armed.lamp m).anySlot s.table.slots (·.advisory) then
          (if (s.table.lamp m).mode = .blink then s.table.lamp m
          else ⟨.blink, 0, decide (0 < (s.config.armed.lamp m).duty * 5)⟩)
        else ⟨.dark, 0, false⟩)) ∧
    { formLamps s with table := s.table } = s ∧ (formLamps s).table.slots = s.table.slots :=
  ⟨formLamps_of_asleep, fun awake => (formLamps_lamp awake m).trans (formLamp_eq ..), formLamps_table s⟩

/-- Settles O32: the forming, the check and the boundary, and the pins. -/
theorem lampsFollowTheirTicks : Obligations.LampsFollowTheirTicks := by
  refine ⟨⟨anySlot_iff, lampsAreFormed, fun s old m => ⟨rearmLamps_of_asleep old, fun awake => ?_,
      rearmLamps_table old s⟩⟩,
    fun s m => ⟨fun due awake => ?_, fun idle => ?_, fun blinks differs => ?_, fun other => ?_⟩,
    fun s m => ⟨fun power => ?_, fun power => ?_, ?_⟩, fun s high restoring => ?_⟩
  · rw [rearmLamps_lamp old awake, rearmLamp_eq, formLamps_lamp awake]
  · refine ⟨_, exec_lampCheckExpiry due, ?_⟩
    rw [formLampsAfresh_of_awake (by exact awake)]
    refine ⟨by simp, fun n => ?_, by simp, by simp, by simp, by simp, by simp, by simp, by simp, ?_⟩
    · rw [(arbitrate_frame _).2.2.2.1]
      cases n
      · exact formLamp_dark ..
      · exact formLamp_dark ..
    · exact (Steady.arbitrate _).queue
  · simp [exec, execLampCheckExpiry, whenDue, idle]
  · have due : boundaryDue (s.config.armed.lamp m) (s.table.lamp m) = true := by
      simpa [boundaryDue, blinks, LampSettings.litAt] using differs
    refine ⟨_, exec_blinkPhaseBoundary due, ?_⟩
    have queue := (Steady.arbitrate (takeLampBoundary m s)).queue
    simp only [arbitrate_frame, takeLampBoundary_frame, takeLampBoundary_lamp] at queue ⊢
    refine ⟨?_, fun n other => if_neg other, trivial, trivial, trivial, trivial, trivial, trivial, trivial, trivial, queue⟩
    rw [if_pos trivial, takeBoundary, if_pos due, ← blinks]
    rfl
  · have idle : boundaryDue (s.config.armed.lamp m) (s.table.lamp m) = false := by simp [boundaryDue, other]
    simp [exec, execBlinkPhaseBoundary, whenDue, idle]
  · refine lampHigh_of_ticking ?_ m
    rcases power with h | h | h | h
    · simp [State.ticking, State.awake, h]
    · simp [State.ticking, State.awake, h]
    · simp [State.ticking, h]
    · simp [State.ticking, h]
  · rcases power with h | h | h
    · simp [State.lampHigh, State.ticking, State.awake, h]
    · simp [State.lampHigh, State.ticking, State.awake, h]
    · simp [State.lampHigh, State.ticking, State.awake, h]
  · exact lampHigh_of_dark (s := enterSleep s) rfl m (by cases m <;> rfl)
  · obtain ⟨ticking, dark⟩ := endRestore_dark high s
    exact ⟨_, exec_restoreStepEnd high restoring, fun m => lampHigh_of_dark ticking m (dark m)⟩

end Sys2Proof.Machine
end

section
/-! A law that every command keeps, from what the pieces of the commands keep. -/

namespace Sys2Proof.Machine

set_option Elab.async false

open Sys2Proof Sys2Proof.Safety

/-- A swap brings stalls and expiries of its own (R10, R30): a law that the events keep holds after it, if it does once the
new set and its marks are in place. -/
theorem EventLaw.swap {P : State → Prop} (E : EventLaw P) (picks : ∀ n {t}, P t → P { t with freePicks := n })
    (lamps : ∀ old {t}, P t → P (rearmLamps old t)) (new : Settings) {s : State}
    (put : P (raiseMarks s.table.slots (swapIn new s))) : P (swap new s) := by
  have restall (sh : Shaft) (old : Settings) (b : Bool) {t : State} (h : P t) : P (restall sh old b t) := by
    unfold Machine.restall
    split
    · exact h
    · exact E.stall sh b h
  have stalled (old : Settings) {t : State} (h : P t) : P (restallAll old t) := by
    unfold restallAll
    dsimp only
    split
    · exact restall _ _ _ (restall _ _ _ (restall _ _ _ (picks _ h)))
    · exact restall _ _ _ (restall _ _ _ (restall _ _ _ (picks _ h)))
  have expired (old : Settings) {t : State} (h : P t) : P (rearmTimers old t) := by
    have confirmed : P (if old.engine = t.config.armed.engine then t else takeConfirmExpiry t) := by
      split
      · exact h
      · exact E.confirm h
    unfold rearmTimers
    dsimp only
    split
    · exact confirmed
    · exact E.lock confirmed
  exact expired _ (stalled _ (lamps _ put))

/-- A law of the state that the events and every other piece of a command keep. -/
structure RunLaw (P : State → Prop) : Prop extends EventLaw P where
  pins : ∀ on high {s}, P s → P { s with clock.supplyOn := on, clock.resetnHigh := high }
  stop : ∀ {p} s, p = .unpowered ∨ p = .held ∨ p = .restore → P (stopped p s)
  restore : ∀ b s, P (endRestore b s)
  settle : ∀ {s}, s.clock.power = .settle → P s → P (endSettle s)
  source : ∀ w {s}, P s → P (takeWakeSource w s)
  wake : ∀ {s}, s.clock.power = .sleep → P s → P (wake s)
  edge : ∀ sh b {s}, P s → P (takeEdge sh b s)
  sample : ∀ l (v : Line) {s}, P s → P { s with inputs := s.inputs.setLine l { v with level := (s.inputs.line l).level } }
  tick : ∀ v {s}, P s → P (tickStep v s)
  completion : ∀ r {s}, P s → P (takeCompletion r s)
  gathered : ∀ rx {s}, P s → P { s with link.rx := rx }
  woken : ∀ items {s}, P s → P (receiveAsleep items s)
  entered : ∀ f {s}, P s → P (enterFrame f s)
  lineFree : ∀ {s}, P s → P { s with link.tx := none }
  replySent : ∀ {s}, P s → P (sleepReplySent s)
  taken : ∀ rest {s}, P s → P { s with link.queue := rest }
  request : ∀ {c f s t}, s.awake = true → Work c f s t → P s → P t

namespace RunLaw

variable {P : State → Prop}

theorem receive (L : RunLaw P) (items : List RxItem) {s : State} (h : P s) : P (receive items s) := by
  unfold Machine.receive
  split
  · have all : ∀ (fs : List Frame) (t : State), P t → P (fs.foldl (fun t f => enterFrame f t) t) := by
      intro fs
      induction fs with
      | nil => exact fun t ht => ht
      | cons f fs ih => exact fun t ht => ih _ (L.entered f ht)
    exact all _ _ (L.gathered _ h)
  · exact L.woken items h

theorem frameSent (L : RunLaw P) (x : TxSource) {s : State} (h : P s) : P (frameSent x s) := by
  unfold Machine.frameSent
  split
  · exact L.stop s (.inr (.inr rfl))
  · exact L.replySent h
  all_goals exact h

theorem sampleAwake (L : RunLaw P) (l : SwitchLine) (high : Bool) {s : State} (h : P s) : P (sampleAwake l high s) := by
  have changed := L.levelChange l false h
  have same (c : LineSettings) (v : Line) : debounce c high v = { debounce c high v with level := v.level } := by
    unfold debounce
    dsimp only
    split
    · rfl
    · rfl
  unfold Machine.sampleAwake
  dsimp only
  rw [same]
  exact L.sample l _ changed

/-- Every command keeps the law. -/
theorem exec (L : RunLaw P) (c : Instr) {s : State} (h : P s) : After P (exec c s) := by
  have event : ∀ {due : Bool} {work : State → State}, (due = true → P (work s)) → After P (whenDue due work s) :=
    fun hw => after_whenDue h fun due => L.arbitrate (hw due)
  by_cases hc : takesFrame c = true
  · exact exec_takesFrame hc h fun f rest t _ awake _ hw =>
      L.arbitrate (L.request (s := { s with link.queue := rest }) awake hw (L.taken rest h))
  cases c with
  | powerOn =>
    show After P (execPowerOn s)
    unfold execPowerOn
    split
    · exact after_next h
    · split
      · exact after_next (L.stop _ (.inr (.inr rfl)))
      · exact after_next (L.stop _ (.inr (.inl rfl)))
  | powerLoss =>
    show After P (execPowerLoss s)
    unfold execPowerLoss
    split
    · exact after_next (L.stop _ (.inl rfl))
    · exact after_next h
  | resetnLow =>
    show After P (execResetnLow s)
    unfold execResetnLow
    split
    · exact after_next (L.stop _ (.inr (.inl rfl)))
    · exact after_next (L.pins s.clock.supplyOn false h)
  | resetnRise =>
    show After P (execResetnRise s)
    unfold execResetnRise
    split
    · exact after_next h
    · split
      · exact after_next (L.stop _ (.inr (.inr rfl)))
      · exact after_next (L.pins s.clock.supplyOn true h)
  | restoreStepEnd b => exact event fun _ => L.restore b s
  | settleEnd => exact event fun due => L.settle (by simpa using due) h
  | pulseEdge sh t us b => exact event fun _ => L.toEventLaw.edgeAt sh t us b (fun _ => L.edge sh b) h
  | channelStall sh us b =>
    exact event (work := fun t => takeStall sh b (passTo us t)) fun _ => L.stall sh b (L.toEventLaw.passTo us h)
  | lineLevelChange l b => exact event fun _ => L.levelChange l b h
  | wakeSource x => exact event fun _ => L.source x h
  | wakeComplete =>
    refine event fun due => L.wake ?_ h
    simp only [Bool.and_eq_true, beq_iff_eq] at due
    exact due.1
  | meterTick v =>
    exact event (work := fun t => tickStep v (passTime (4000 - t.inputs.tickUs) t)) fun _ =>
      L.tick v (L.toEventLaw.passTime _ h)
  | tally o => exact event fun _ => L.tally o h
  | checkpointDue => exact event fun _ => L.checkpoint h
  | confirmTimerExpiry => exact event fun _ => L.confirm h
  | lockTimerExpiry => exact event fun _ => L.lock h
  | freshnessExpiry => exact event fun _ => L.freshness h
  | dozeTimerExpiry => exact event fun _ => L.doze h
  | lampCheckExpiry => exact event fun _ => L.lampCheck h
  | blinkPhaseBoundary m => exact event fun _ => L.lampBoundary m h
  | commitComplete r => exact event fun _ => L.completion r h
  | frameReceived bs => exact event fun _ => L.receive _ h
  | interByteTimeout bs => exact event fun _ => L.receive _ h
  | frameDiscarded bs b => exact event fun _ => L.receive _ h
  | transmitComplete =>
    show After P (execTransmitComplete s)
    unfold execTransmitComplete
    split
    · exact after_next h
    · exact after_settled (L.arbitrate (L.frameSent _ (L.lineFree h)))
  | switchLineSample l b =>
    show After P (execSwitchLineSample l b s)
    unfold execSwitchLineSample
    split
    · exact after_settled (L.arbitrate (L.sampleAwake l b h))
    · exact event fun _ => L.sample l (settleSample (s.config.armed.line l) b (s.inputs.line l)) h
  | _ => exact absurd rfl hc

/-- A step keeps the law where the queue of waiting commands does not matter to it. -/
theorem step (L : RunLaw P) (waiting : ∀ p {s}, P s → P { s with pending := p }) {s t : State} (h : P s)
    (stepped : step s = .next t) : P t := by
  unfold Machine.step at stepped
  split at stepped
  · cases stepped
    exact h
  · exact L.exec _ (waiting _ h) t stepped

end RunLaw

end Sys2Proof.Machine
end

section
/-! Engine, clutch, attempt, timers and power state fit together (`Safety.tracks`). -/

namespace Sys2Proof.Machine

set_option Elab.async false

open Sys2Proof Sys2Proof.Safety

/-- IGN feeds the engine in these states: READY, CRANKING, CONFIRMING and RUNNING. -/
def Engine.fed (e : Engine) : Bool := e != .off && e != .runDown

/-- An attempt is open as the engine state asks (R47). -/
def attemptFits (e : Engine) (isOpen : Bool) : Bool :=
  if e = .cranking ∨ e = .confirming then isOpen else !isOpen || e == .running

/-- The clutch and the two timers fit the engine. -/
structure Drivetrain (s : State) : Prop where
  clutch : (s.duty.clutch == .idle) = !s.duty.engine.turning
  confirm : s.duty.confirmTimer.isSome = (s.duty.engine == .confirming)
  lock : s.duty.lockTimer.isSome = false ∨ s.duty.clutch = .slipping

/-- `Safety.tracks`, part by part. -/
structure Tracks (s : State) : Prop extends Drivetrain s where
  attempt : attemptFits s.duty.engine s.starts.attempt.isSome = true
  ignition : s.inputs.ign.level = s.duty.engine.fed
  run : s.inputs.ign.level = (s.clock.power == .run)
  awake : s.awake = true ∨ s.duty.engine = .off

theorem tracks_iff (s : State) : tracks s = true ↔ Tracks s := by
  have attempt : (if s.duty.engine = .cranking ∨ s.duty.engine = .confirming then s.starts.attempt.isSome
      else s.starts.attempt.isNone || s.duty.engine == .running) =
      attemptFits s.duty.engine s.starts.attempt.isSome := by
    rw [attemptFits, Option.not_isSome]
  have lock : s.duty.lockTimer.isNone = !s.duty.lockTimer.isSome := (Option.not_isSome _).symm
  rw [tracks, attempt, lock]
  simp only [Bool.and_eq_true, beq_iff_eq, Bool.or_eq_true, Bool.not_eq_true']
  constructor
  · rintro ⟨⟨⟨⟨⟨⟨ignition, clutch⟩, attempt⟩, confirm⟩, lock⟩, run⟩, awake⟩
    exact ⟨⟨clutch, confirm, lock⟩, attempt, ignition, run, awake⟩
  · rintro ⟨⟨clutch, confirm, lock⟩, attempt, ignition, run, awake⟩
    exact ⟨⟨⟨⟨⟨⟨ignition, clutch⟩, attempt⟩, confirm⟩, lock⟩, run⟩, awake⟩

theorem awake_of_power {s t : State} (power : t.clock.power = s.clock.power) : t.awake = s.awake := by
  simp only [State.awake, power]

/-- What the law reads stands. -/
theorem Tracks.same {s t : State} (h : Tracks s) (engine : t.duty.engine = s.duty.engine := by simp)
    (clutch : t.duty.clutch = s.duty.clutch := by simp)
    (confirm : t.duty.confirmTimer.isSome = s.duty.confirmTimer.isSome := by simp)
    (lock : t.duty.lockTimer.isSome = s.duty.lockTimer.isSome := by simp)
    (attempt : t.starts.attempt.isSome = s.starts.attempt.isSome := by simp)
    (ign : t.inputs.ign.level = s.inputs.ign.level := by simp)
    (power : t.clock.power = s.clock.power := by simp) : Tracks t where
  clutch := by rw [clutch, engine, h.clutch]
  confirm := by rw [confirm, engine, h.confirm]
  lock := by rw [lock, clutch]; exact h.lock
  attempt := by rw [engine, attempt, h.attempt]
  ignition := by rw [ign, engine, h.ignition]
  run := by rw [ign, power, h.run]
  awake := by rw [awake_of_power power, engine]; exact h.awake

/-! ## The engine and the clutch -/

theorem Drivetrain.of_duty {s t : State} (h : Drivetrain s) (duty : t.duty = s.duty := by simp) : Drivetrain t := by
  obtain ⟨clutch, confirm, lock⟩ := h
  exact ⟨by rw [duty, clutch], by rw [duty, confirm], by rw [duty]; exact lock⟩

/-- A move keeps clutch and timers with the engine. -/
theorem Drivetrain.moveEngine {s : State} (e : Engine) (h : Drivetrain s) : Drivetrain (moveEngine e s) := by
  have timer : ((if e = .confirming then some 0 else none : Option Nat)).isSome = (e == .confirming) := by
    cases e <;> rfl
  cases before : s.duty.engine.turning with
  | true =>
    cases after : e.turning with
    | true =>
      rw [moveEngine_of_same_turning (by rw [before, after])]
      exact ⟨h.clutch.trans (by rw [before, after]), timer, h.lock⟩
    | false =>
      rw [moveEngine_from_turning before after]
      have other : (e == .confirming) = false := beq_eq_false_iff_ne.mpr (by rintro rfl; cases after)
      exact ⟨by rw [after]; rfl, other.symm, .inl rfl⟩
  | false =>
    cases after : e.turning with
    | true =>
      rw [moveEngine_to_turning before after]
      refine ⟨?_, timer, ?_⟩
      · rw [after]
        cases s.inputs.clu.level <;> rfl
      · cases s.inputs.clu.level
        · exact .inr rfl
        · exact .inl (by simp)
    | false =>
      rw [moveEngine_of_same_turning (by rw [before, after])]
      exact ⟨h.clutch.trans (by rw [before, after]), timer, h.lock⟩

theorem moveEngine_engine (e : Engine) (s : State) : (moveEngine e s).duty.engine = e := by
  unfold moveEngine
  dsimp only
  split
  · simp [clutchLeavesIdle_eq]
  · split
    · rfl
    · rfl

/-- The engine moves on, under the IGN level and the power state as they are. -/
theorem Tracks.ofEngine {s t : State} (h : Tracks s) (train : Drivetrain t)
    (attempt : attemptFits t.duty.engine t.starts.attempt.isSome = true)
    (fed : t.duty.engine.fed = s.duty.engine.fed) (live : s.duty.engine = .off → t.duty.engine = .off)
    (ign : t.inputs.ign.level = s.inputs.ign.level := by simp)
    (power : t.clock.power = s.clock.power := by simp) : Tracks t where
  toDrivetrain := train
  attempt := attempt
  ignition := by rw [ign, fed, h.ignition]
  run := by rw [ign, power, h.run]
  awake := by rw [awake_of_power power]; exact h.awake.imp id live

theorem closeAttempt_attempt (c : AttemptClass) (s : State) : (closeAttempt c s).starts.attempt = none := by
  unfold closeAttempt
  split
  · next h => exact h
  · rfl

/-- An entry to READY ends in a state that IGN feeds, with an attempt open as it asks. -/
theorem enterReady_fits {s : State} (h : Drivetrain s) (closed : s.starts.attempt = none) :
    Drivetrain (enterReady s) ∧
      attemptFits (enterReady s).duty.engine (enterReady s).starts.attempt.isSome = true ∧
      (enterReady s).duty.engine.fed = true := by
  have ready := h.moveEngine .ready
  unfold enterReady
  dsimp only
  split
  · exact ⟨(ready.moveEngine .cranking).of_duty rfl, by
      simp [startCranking, openAttempt, moveEngine_engine, attemptFits], by
      simp [startCranking, openAttempt, moveEngine_engine, Engine.fed]⟩
  · split
    · exact ⟨(ready.moveEngine .confirming).of_duty rfl, by
        simp [startPushed, openAttempt, moveEngine_engine, attemptFits], by
        simp [startPushed, openAttempt, moveEngine_engine, Engine.fed]⟩
    · exact ⟨ready, by simp [moveEngine_engine, attemptFits, closed], by simp [moveEngine_engine, Engine.fed]⟩

theorem Tracks.enterReady {s t : State} (h : Tracks s) (train : Drivetrain t) (closed : t.starts.attempt = none)
    (fed : s.duty.engine.fed = true) (ign : t.inputs.ign.level = s.inputs.ign.level := by simp)
    (power : t.clock.power = s.clock.power := by simp) : Tracks (enterReady t) := by
  obtain ⟨train', attempt', fed'⟩ := enterReady_fits train closed
  refine h.ofEngine train' attempt' (fed'.trans fed.symm) (fun off => ?_) (by simpa using ign) (by simpa using power)
  rw [off] at fed
  cases fed

theorem Tracks.closed {s : State} (h : Tracks s) (other : s.duty.engine ≠ .cranking ∧ s.duty.engine ≠ .confirming ∧
    s.duty.engine ≠ .running) : s.starts.attempt = none := by
  have fits := h.attempt
  obtain ⟨a, b, c⟩ := other
  simpa [attemptFits, a, b, c] using fits

theorem Tracks.engineSpeed {s : State} (h : Tracks s) : Tracks (engineSpeed s) := by
  unfold Machine.engineSpeed
  split
  · next ready =>
    split
    · refine h.ofEngine ((h.moveEngine .confirming).of_duty rfl) ?_ ?_ ?_ (by simp) (by simp)
      · simp [startPushed, openAttempt, moveEngine_engine, attemptFits]
      · rw [show (startPushed s).duty.engine = _ from moveEngine_engine .confirming s, ready]
        rfl
      · simp [ready]
    · exact h
  · next confirming =>
    split
    · exact h
    · exact h.enterReady (h.toDrivetrain.of_duty) (closeAttempt_attempt ..) (by rw [confirming]; rfl)
  · next running =>
    split
    · exact h
    · refine h.enterReady ?_ ?_ (by rw [running]; rfl)
      · exact ⟨by simpa [onMeters] using h.clutch, by simpa [onMeters] using h.confirm,
          by simpa [onMeters] using h.lock⟩
      · simpa [onMeters] using closeAttempt_attempt .reEngage s
  · next runDown =>
    split
    · exact h
    · refine h.ofEngine (h.moveEngine .off) ?_ ?_ (fun _ => moveEngine_engine ..) (by simp) (by simp)
      · rw [moveEngine_engine, (moveEngine_frame _ _).2.1, h.closed (by simp [runDown])]
        rfl
      · rw [moveEngine_engine, runDown]
        rfl
  all_goals exact h

theorem Tracks.clutchSpeed {s : State} (h : Tracks s) : Tracks (clutchSpeed s) := by
  unfold Machine.clutchSpeed
  split
  · next slipping =>
    exact ⟨⟨h.clutch, h.confirm, .inr slipping⟩, h.attempt, h.ignition, h.run, h.awake⟩
  · next locked =>
    split
    · exact h
    · have turns := h.clutch
      rw [locked] at turns
      exact ⟨⟨turns, h.confirm, .inl rfl⟩, h.attempt, h.ignition, h.run, h.awake⟩
  all_goals exact h

theorem Tracks.clutchPedal {s : State} (b : Bool) (h : Tracks s) : Tracks (clutchPedal b s) := by
  unfold Machine.clutchPedal
  split
  · next slipping =>
    have turns := h.clutch
    rw [slipping] at turns
    exact ⟨⟨turns, h.confirm, .inl rfl⟩, h.attempt, h.ignition, h.run, h.awake⟩
  · next locked =>
    have turns := h.clutch
    rw [locked] at turns
    exact ⟨⟨turns, h.confirm, .inl rfl⟩, h.attempt, h.ignition, h.run, h.awake⟩
  · next opened =>
    have turns := h.clutch
    rw [opened] at turns
    exact ⟨⟨turns, h.confirm, .inr rfl⟩, h.attempt, h.ignition, h.run, h.awake⟩
  · exact h

theorem Tracks.takeLockExpiry {s : State} (h : Tracks s) : Tracks (takeLockExpiry s) := by
  unfold Machine.takeLockExpiry
  split
  · next due =>
    simp only [lockDue, Bool.and_eq_true, beq_iff_eq] at due
    have turns := h.clutch
    rw [due.1] at turns
    exact ⟨⟨turns, h.confirm, .inl rfl⟩, h.attempt, h.ignition, h.run, h.awake⟩
  · exact h

theorem Tracks.takeConfirmExpiry {s : State} (h : Tracks s) : Tracks (takeConfirmExpiry s) := by
  unfold Machine.takeConfirmExpiry
  dsimp only
  split
  · next due =>
    simp only [confirmDue, Bool.and_eq_true, beq_iff_eq] at due
    refine h.ofEngine ((h.toDrivetrain.of_duty (t := closeAttempt _ s)).moveEngine .running) ?_ ?_ ?_ (by simp) (by simp)
    · rw [moveEngine_engine, (moveEngine_frame _ _).2.1, closeAttempt_attempt]
      rfl
    · rw [moveEngine_engine, due.1]
      rfl
    · simp [due.1]
  · exact h

theorem Tracks.engineCrank {s : State} (b : Bool) (h : Tracks s) : Tracks (engineCrank b s) := by
  unfold Machine.engineCrank
  split
  · next ready =>
    refine h.ofEngine ((h.moveEngine .cranking).of_duty rfl) ?_ ?_ (by simp [ready]) (by simp) (by simp)
    · simp [startCranking, openAttempt, moveEngine_engine, attemptFits]
    · rw [show (startCranking s).duty.engine = _ from moveEngine_engine .cranking s, ready]
      rfl
  · next cranking =>
    split
    · refine h.ofEngine ((h.toDrivetrain.of_duty (t := stopCrank s)).moveEngine .confirming) ?_ ?_ (by simp [cranking])
        (by simp) (by simp)
      · have fits := h.attempt
        simpa [moveEngine_engine, attemptFits, cranking, stopCrank] using fits
      · rw [moveEngine_engine, cranking]
        rfl
    · exact h.enterReady (h.toDrivetrain.of_duty) (closeAttempt_attempt ..) (by rw [cranking]; rfl)
  · next confirming =>
    refine h.ofEngine ((h.moveEngine .cranking).of_duty rfl) ?_ ?_ (by simp [confirming]) (by simp) (by simp)
    · have fits := h.attempt
      simpa [resumeCrank, moveEngine_engine, attemptFits, confirming] using fits
    · rw [show (resumeCrank (Machine.moveEngine .cranking s)).duty.engine = _ from moveEngine_engine .cranking s, confirming]
      rfl
  · next running =>
    refine h.ofEngine (h.toDrivetrain.of_duty) ?_ ?_ (by simp [running]) (by simp) (by simp)
    · simp [openAttempt, attemptFits, running]
    · simp
  · next running =>
    refine h.ofEngine (h.toDrivetrain.of_duty) ?_ ?_ (by simp [running]) (by simp) (by simp)
    · simp [closeAttempt_attempt, attemptFits, running]
    · simp
  · exact h

end Sys2Proof.Machine
end

section
/-! The tracking law over commits, power, the change of IGN and the commands. -/

namespace Sys2Proof.Machine

set_option Elab.async false

open Sys2Proof Sys2Proof.Safety

/-! ## Commits and the entry to SLEEP -/

/-- The power state stands, or SLEEP is entered from a part at rest (R156, R158). -/
def MayRest (s t : State) : Prop :=
  t.clock.power = s.clock.power ∨
    t.clock.power = .sleep ∧ s.inputs.ign.level = false ∧ s.duty.engine = .off

theorem MayRest.of_same {s u t : State} (h : MayRest u t) (power : u.clock.power = s.clock.power := by simp)
    (ign : u.inputs.ign.level = s.inputs.ign.level := by simp)
    (engine : u.duty.engine = s.duty.engine := by simp) : MayRest s t := by
  rw [MayRest, ← power, ← ign, ← engine]
  exact h

theorem sleepTest_mayRest (s : State) : MayRest s (sleepTest s) := by
  unfold sleepTest
  split
  · split
    · split
      · next rests =>
        rw [Bool.and_eq_true, sleepConditions_iff] at rests
        obtain ⟨⟨ign, engine, -⟩, -⟩ := rests
        split
        · exact .inr ⟨rfl, ign, engine⟩
        · exact .inl rfl
      · exact .inl (by simp)
    · exact .inl rfl
  · exact .inl rfl

theorem beginCommit_mayRest (s : State) : MayRest s (beginCommit s) := by
  unfold beginCommit
  dsimp only
  split
  · exact .inl rfl
  · exact (sleepTest_mayRest _).of_same

theorem askCommit_mayRest (s : State) : MayRest s (askCommit s) := by
  unfold askCommit
  split
  · exact beginCommit_mayRest s
  · exact .inl rfl
  · exact .inl rfl

theorem completeCommit_mayRest (f : Flight) (p : Bool) (r : CommitResult) (s : State) :
    MayRest s (completeCommit f p r s) := by
  have ends (u : State) (h : MayRest s u) (ign : u.inputs.ign.level = s.inputs.ign.level)
      (engine : u.duty.engine = s.duty.engine) : MayRest s (sleepTest u) := by
    rcases sleepTest_mayRest u with same | ⟨asleep, rests, off⟩
    · rcases h with stands | ⟨asleep, rests, off⟩
      · exact .inl (same.trans stands)
      · exact .inr ⟨same.trans asleep, rests, off⟩
    · exact .inr ⟨asleep, ign ▸ rests, engine ▸ off⟩
  unfold completeCommit
  cases r with
  | verified =>
    dsimp only
    split
    · exact ends _ ((beginCommit_mayRest _).of_same) (by simp) (by simp)
    · exact ends _ (.inl (by simp)) (by simp) (by simp)
  | failed left =>
    dsimp only
    split
    · exact ends _ ((beginCommit_mayRest _).of_same) (by simp) (by simp)
    · exact ends _ (.inl (by simp)) (by simp) (by simp)

/-- What the law reads stands, and the part may have come to rest. -/
theorem Tracks.mayRest {s t : State} (h : Tracks s) (power : MayRest s t)
    (engine : t.duty.engine = s.duty.engine := by simp) (clutch : t.duty.clutch = s.duty.clutch := by simp)
    (confirm : t.duty.confirmTimer = s.duty.confirmTimer := by simp)
    (lock : t.duty.lockTimer = s.duty.lockTimer := by simp)
    (attempt : t.starts = s.starts := by simp)
    (ign : t.inputs.ign.level = s.inputs.ign.level := by simp) : Tracks t := by
  rcases power with stands | ⟨asleep, rests, off⟩
  · exact h.same engine clutch (by rw [confirm]) (by rw [lock]) (by rw [attempt]) ign stands
  · exact
      { clutch := by rw [clutch, engine, h.clutch]
        confirm := by rw [confirm, engine, h.confirm]
        lock := by rw [lock, clutch]; exact h.lock
        attempt := by rw [engine, attempt, h.attempt]
        ignition := by rw [ign, engine, h.ignition]
        run := by rw [ign, rests, asleep]; rfl
        awake := .inr (engine.trans off) }

theorem Tracks.sleepTest {s : State} (h : Tracks s) : Tracks (sleepTest s) := h.mayRest (sleepTest_mayRest s)

theorem Tracks.askCommit {s : State} (h : Tracks s) : Tracks (askCommit s) := h.mayRest (askCommit_mayRest s)

theorem Tracks.takeCompletion {s : State} (r : CommitResult) (h : Tracks s) : Tracks (takeCompletion r s) := by
  unfold Machine.takeCompletion
  split
  · exact h
  · exact h.mayRest (completeCommit_mayRest _ _ _ s)
  · exact h.mayRest (completeCommit_mayRest _ _ _ s)

theorem Tracks.takeCheckpointTest {s : State} (h : Tracks s) : Tracks (takeCheckpointTest s) := by
  unfold Machine.takeCheckpointTest
  dsimp only
  have tested : Tracks { s with clock.secondStep := false } := h.same
  split
  · split
    · exact tested.askCommit
    · exact tested
  · exact h

theorem Tracks.takeDozeExpiry {s : State} (h : Tracks s) : Tracks (takeDozeExpiry s) := by
  unfold Machine.takeDozeExpiry
  dsimp only
  split
  · split
    · split
      · exact Tracks.askCommit (h.same)
      · exact h.same
    · exact h.same
  · exact h

theorem Tracks.sleepReplySent {s : State} (h : Tracks s) : Tracks (sleepReplySent s) :=
  Tracks.sleepTest (h.same)

/-! ## The change of IGN -/

/-- The drive train and the attempt of a state in which the engine has come to `fed`. -/
structure Driven (fed : Bool) (s : State) : Prop extends Drivetrain s where
  attempt : attemptFits s.duty.engine s.starts.attempt.isSome = true
  fed : s.duty.engine.fed = fed

theorem Tracks.driven {s t : State} (h : Tracks s) (duty : t.duty = s.duty := by simp)
    (starts : t.starts = s.starts := by simp) : Driven s.duty.engine.fed t where
  toDrivetrain := h.toDrivetrain.of_duty duty
  attempt := by rw [duty, starts, h.attempt]
  fed := by rw [duty]

/-- The law of an awake part, from its IGN level, its drive train and its power state. -/
theorem Driven.tracks {b : Bool} {s : State} (h : Driven b s) (ign : s.inputs.ign.level = b)
    (power : s.clock.power = if b then .run else .doze) : Tracks s where
  toDrivetrain := h.toDrivetrain
  attempt := h.attempt
  ignition := by rw [ign, h.fed]
  run := by cases b <;> rw [ign, power] <;> rfl
  awake := .inl (by cases b <;> rw [awake_iff, power] <;> simp)

theorem Driven.closed {s : State} (h : Driven false s) : s.starts.attempt = none := by
  have fits := h.attempt
  have out := h.fed
  cases engine : s.duty.engine with
  | off => simpa [engine, attemptFits] using fits
  | runDown => simpa [engine, attemptFits] using fits
  | ready => simp [engine, Engine.fed] at out
  | cranking => simp [engine, Engine.fed] at out
  | confirming => simp [engine, Engine.fed] at out
  | running => simp [engine, Engine.fed] at out

theorem Driven.enterReady {s : State} (h : Driven false s) : Driven true (enterReady s) := by
  obtain ⟨train, fits, fed⟩ := enterReady_fits h.toDrivetrain h.closed
  exact ⟨train, fits, fed⟩

theorem Driven.engineOn {s : State} (h : Driven false s) : Driven true (engineIgnition true s) := by
  have running := h.toDrivetrain.moveEngine .running
  have out := h.fed
  cases engine : s.duty.engine with
  | off => simpa [engineIgnition, engine] using h.enterReady
  | runDown =>
    cases fast : s.atStallSpeed with
    | false => simpa [engineIgnition, engine, fast] using h.enterReady
    | true =>
      simp only [engineIgnition, engine, fast, if_true]
      split
      · exact ⟨running.of_duty rfl, by simp [openAttempt, moveEngine_engine, attemptFits], by
          simp [openAttempt, moveEngine_engine, Engine.fed]⟩
      · exact ⟨running, by simp [moveEngine_engine, attemptFits], by simp [moveEngine_engine, Engine.fed]⟩
  | ready => simp [engine, Engine.fed] at out
  | cranking => simp [engine, Engine.fed] at out
  | confirming => simp [engine, Engine.fed] at out
  | running => simp [engine, Engine.fed] at out

/-- The engine moved to OFF or RUN_DOWN with no attempt left open. -/
theorem Drivetrain.cut {s : State} (h : Drivetrain s) {e : Engine} (out : e.fed = false)
    (closed : s.starts.attempt = none) : Driven false (Machine.moveEngine e s) where
  toDrivetrain := h.moveEngine e
  attempt := by
    rw [moveEngine_engine, (moveEngine_frame _ _).2.1, closed, attemptFits, if_neg]
    · rfl
    · rintro (rfl | rfl) <;> cases out
  fed := by rw [moveEngine_engine, out]

theorem Drivetrain.ignitionCut {s : State} (h : Drivetrain s) (closed : s.starts.attempt = none) :
    Driven false (ignitionCut s) := by
  unfold Machine.ignitionCut
  split
  · exact h.cut rfl closed
  · exact h.cut rfl closed

theorem Driven.engineOff {b : Bool} {s : State} (h : Driven b s) : Driven false (engineIgnition false s) := by
  have closing (c : AttemptClass) : Drivetrain (closeAttempt c s) := h.toDrivetrain.of_duty
  have fits := h.attempt
  cases engine : s.duty.engine with
  | off =>
    simp only [engineIgnition, engine]
    exact ⟨h.toDrivetrain, fits, by rw [engine]; rfl⟩
  | runDown =>
    simp only [engineIgnition, engine]
    exact ⟨h.toDrivetrain, fits, by rw [engine]; rfl⟩
  | ready =>
    simp only [engineIgnition, engine]
    exact h.toDrivetrain.cut rfl (by simpa [engine, attemptFits] using fits)
  | cranking =>
    simp only [engineIgnition, engine]
    exact (closing .failed).ignitionCut (closeAttempt_attempt ..)
  | confirming =>
    simp only [engineIgnition, engine]
    exact (closing .failed).ignitionCut (closeAttempt_attempt ..)
  | running =>
    simp only [engineIgnition, engine]
    exact (closing .reEngage).cut rfl (closeAttempt_attempt ..)

/-- With no sleep pending, the auto-close leaves the drive train and the power state. -/
theorem autoClose_power {s : State} (calm : s.clock.sleep = none) :
    (autoClose s).clock.power = s.clock.power ∧ (autoClose s).starts = s.starts := by
  unfold autoClose
  split
  · exact ⟨rfl, rfl⟩
  · split
    · exact ⟨(askCommit_of_awake (by simpa using calm)).2.2.trans (by simp), by simp⟩
    · exact ⟨rfl, rfl⟩

theorem Driven.autoClose {b : Bool} {s : State} (h : Driven b s) (calm : s.clock.sleep = none) :
    Driven b (autoClose s) := by
  obtain ⟨-, duty, -⟩ := autoClose_of_awake calm
  obtain ⟨-, starts⟩ := autoClose_power calm
  exact ⟨h.toDrivetrain.of_duty duty, by rw [duty, starts, h.attempt], by rw [duty, h.fed]⟩

theorem Tracks.ignitionChanged {s : State} (active hireFirst : Bool) (was : s.inputs.ign.level = !active)
    (h : Tracks s) : Tracks (ignitionChanged active hireFirst (withIgn active s)) := by
  obtain ⟨duty, -, inputs, -, starts, -, calm⟩ := poweredBy_frame active s
  have driven : Driven (!active) (poweredBy active s) := by
    rw [← was, h.ignition]
    exact h.driven duty starts
  have ign : (poweredBy active s).inputs.ign.level = active := by
    rw [inputs]
    rfl
  cases active with
  | true =>
    have power : (poweredBy true s).clock.power = .run := rfl
    have on : Tracks (engineIgnition true (poweredBy true s)) :=
      driven.engineOn.tracks (by simpa using ign) (by simpa using power)
    exact on.same (t := startLampCheck (engineIgnition true (poweredBy true s)))
  | false =>
    have power : (poweredBy false s).clock.power = .doze := by simp [poweredBy, powerIgnition]
    show Tracks (ignitionOff hireFirst (poweredBy false s))
    unfold ignitionOff
    split
    · obtain ⟨inputs', -⟩ := autoClose_of_awake calm
      obtain ⟨power', -⟩ := autoClose_power calm
      exact (driven.autoClose calm).engineOff.tracks (by simpa [inputs'] using ign) (by simpa [power'] using power)
    · have calm' : (engineIgnition false (poweredBy false s)).clock.sleep = none := by simpa using calm
      obtain ⟨inputs', -⟩ := autoClose_of_awake calm'
      obtain ⟨power', -⟩ := autoClose_power calm'
      exact (driven.engineOff.autoClose calm').tracks (by simpa [inputs'] using ign) (by simpa [power'] using power)

theorem Tracks.powerCrank {s : State} (h : Tracks s) : Tracks (powerCrank s) := by
  unfold Machine.powerCrank
  exact h.same

theorem Tracks.levelChange (l : SwitchLine) (b : Bool) {s : State} (h : Tracks s) : Tracks (takeLevelChange l b s) := by
  unfold takeLevelChange
  dsimp only
  split
  · cases l with
    | ign => exact h.ignitionChanged (!s.inputs.ign.level) b (Bool.not_not _).symm
    | crk => exact Tracks.engineCrank _ (Tracks.powerCrank (h.same rfl rfl rfl rfl rfl rfl rfl))
    | clu => exact Tracks.clutchPedal _ (h.same rfl rfl rfl rfl rfl rfl rfl)
    | rvs => exact h.same rfl rfl rfl rfl rfl rfl rfl
  · exact h

/-! ## Channels -/

theorem Tracks.speedChanged (sh : Shaft) (b : Bool) {s : State} (h : Tracks s) : Tracks (speedChanged sh b s) := by
  unfold Machine.speedChanged
  split
  · split
    · split
      · exact h.clutchSpeed.engineSpeed
      · exact h.engineSpeed.clutchSpeed
    · exact h.clutchSpeed
    · exact h
  · exact h

theorem Tracks.putChannel (sh : Shaft) (v : Channel) (b : Bool) {s : State} (h : Tracks s) :
    Tracks (putChannel sh v b s) := by
  have put : Tracks { s with inputs := s.inputs.setChannel sh v } :=
    h.same rfl rfl rfl rfl rfl (by cases sh <;> rfl) rfl
  unfold Machine.putChannel
  dsimp only
  split
  · exact put
  · exact put.speedChanged sh b

theorem Tracks.takeStall (sh : Shaft) (b : Bool) {s : State} (h : Tracks s) : Tracks (takeStall sh b s) := by
  unfold Machine.takeStall
  dsimp only
  split
  · exact h
  · split
    · exact h.putChannel ..
    · exact h

theorem countEdge_tracked (sh : Shaft) (s : State) :
    (countEdge sh s).duty = s.duty ∧ (countEdge sh s).starts = s.starts ∧ (countEdge sh s).clock = s.clock ∧
      (countEdge sh s).inputs.ign = s.inputs.ign := by
  cases sh with
  | eng => exact ⟨rfl, rfl, rfl, rfl⟩
  | inp => exact ⟨rfl, rfl, rfl, rfl⟩
  | out =>
    refine ⟨rfl, rfl, rfl, ?_⟩
    simp only [countEdge, countRevolution]
    split
    · rfl
    · rfl

theorem Tracks.countEdge (sh : Shaft) {s : State} (h : Tracks s) : Tracks (countEdge sh s) := by
  obtain ⟨duty, starts, clock, ign⟩ := countEdge_tracked sh s
  exact h.same (by rw [duty]) (by rw [duty]) (by rw [duty]) (by rw [duty]) (by rw [starts]) (by rw [ign])
    (by rw [clock])

theorem Tracks.takeEdge (sh : Shaft) (b : Bool) {s : State} (h : Tracks s) : Tracks (takeEdge sh b s) := by
  unfold Machine.takeEdge
  split
  · split
    · have counted := (h.putChannel sh ((s.inputs.channel sh).edge (s.config.armed.channel sh) s.inputs.captureUs)
        b).countEdge sh
      unfold acceptAwake
      dsimp only
      split
      · exact counted.same
      · exact counted
      · exact counted
    · have counted : Tracks (Machine.countEdge .out { s with inputs.out.lastEdge := some s.inputs.captureUs }) :=
        Tracks.countEdge .out (h.same)
      unfold acceptAsleep
      dsimp only
      split
      · exact counted.same
      · exact counted
  · exact h

/-! ## The tick -/

theorem Tracks.tickTimers {s : State} (h : Tracks s) : Tracks (tickTimers s) := by
  obtain ⟨power, inputs, -⟩ := tickTimers_frame s
  obtain ⟨-, duty, starts, -⟩ := stepDoze_frame (stepTimers (stepMeterTime (instantOver { s with inputs.tickUs := 0 })))
  rw [← Machine.tickTimers] at duty starts
  exact h.same (by rw [duty]; simp [stepTimers, stepMeterTime]) (by rw [duty]; simp [stepTimers, stepMeterTime])
    (by rw [duty]; simp [stepTimers, stepMeterTime]) (by rw [duty]; simp [stepTimers, stepMeterTime])
    (by rw [starts]; simp [stepTimers, stepMeterTime]) (by rw [inputs]) power

/-- The parts of a tally, in whichever of its orders. -/
theorem takeTally_keeps {P : State → Prop} (o : TallyOrder) {s : State} (untaken : P s)
    (taken : P { s with clock.tallyDue := false }) (metered : ∀ n {t}, P t → P (tallyMeters n (drainOut t)))
    (tracked : ∀ {t}, P t → P (trackGear t)) (charged : ∀ n {t}, P t → P (chargeTally n t))
    (streamed : ∀ {t}, P t → P (streamTally t)) : P (takeTally o s) := by
  unfold takeTally
  split
  · obtain ⟨gearFirst, reportFirst⟩ := o
    cases gearFirst
    · cases reportFirst
      · exact streamed (tracked (charged _ (metered _ taken)))
      · exact tracked (charged _ (streamed (metered _ taken)))
    · cases reportFirst
      · exact streamed (charged _ (tracked (metered _ taken)))
      · exact charged _ (tracked (streamed (metered _ taken)))
  · exact untaken

theorem Tracks.streamTally {s : State} (h : Tracks s) : Tracks (streamTally s) := by
  have stream (st : Option Stream) (r : Option (List Field)) : Tracks { s with link.stream := st, link.report := r } :=
    h.same rfl rfl rfl rfl rfl rfl rfl
  unfold Machine.streamTally
  split
  · exact h
  · split
    · exact stream _ _
    · split
      · exact stream _ _
      · split
        · exact Tracks.same (stream none (some (reportFields s)))
        · exact stream _ _

theorem Tracks.takeTally (o : TallyOrder) {s : State} (h : Tracks s) : Tracks (takeTally o s) :=
  takeTally_keeps o h (h.same) (fun _ _ ht => ht.same (by simp [drainOut]) (by simp [drainOut]) (by simp [drainOut])
      (by simp [drainOut]) (by simp [drainOut]) (by simp [drainOut]) (by simp [drainOut]))
    (fun ht => ht.same) (fun _ _ ht => ht.same) Tracks.streamTally

theorem Tracks.testSupply (v : Nat) {s : State} (h : Tracks s) : Tracks (testSupply v s) := by
  unfold Machine.testSupply
  split
  · split
    · exact Tracks.askCommit (h.same)
    · exact h
  · split
    · exact h.same
    · exact h

theorem Tracks.tickStep (v : Nat) {s : State} (h : Tracks s) : Tracks (tickStep v s) := by
  rw [tickStep_eq]
  unfold takeSample
  split
  · have sampled : Tracks { Machine.tickTimers s with
        inputs.vbat := vbatSample v,
        starts.attempt := (Machine.tickTimers s).starts.attempt.map (Attempt.sample (vbatSample v)) } :=
      h.tickTimers.same
    exact sampled.testSupply _
  · exact h.tickTimers

/-! ## Start-up and wake -/

/-- A stopped part tracks nothing: IGN inactive, the engine in OFF. -/
theorem tracks_stopped {p : Power} (s : State) (asleep : p ≠ .run) : Tracks (stopped p s) where
  clutch := rfl
  confirm := rfl
  lock := .inl rfl
  attempt := rfl
  ignition := rfl
  run := by
    show false = (p == .run)
    simpa using asleep
  awake := .inr rfl

theorem tracks_endRestore (b : Bool) (s : State) : Tracks (endRestore b s) := by
  have blank := tracks_stopped (p := .settle) s (by simp)
  rcases endRestore_cases b s with h | ⟨a, i, -, h⟩
  · rw [h]
    exact blank.same
  · rw [h]
    exact blank.same rfl rfl rfl rfl rfl rfl rfl

theorem settledEngine_cases (s : State) :
    s.inputs.ign.sample.getD false = false ∧ settledEngine s = .off ∨
      s.inputs.ign.sample.getD false = true ∧
        (settledEngine s = .running ∨ settledEngine s = .cranking ∨ settledEngine s = .ready) := by
  unfold settledEngine
  cases s.inputs.ign.sample.getD false with
  | false => exact .inl ⟨rfl, rfl⟩
  | true =>
    refine .inr ⟨rfl, ?_⟩
    simp only [Bool.not_true, Bool.false_eq_true, if_false]
    split
    · exact .inl rfl
    · split
      · exact .inr (.inl rfl)
      · exact .inr (.inr rfl)

/-- What the end of settle decides for the engine, the clutch and the attempt fits together (R29, R36). -/
theorem settledTracking_driven {s : State} (closed : s.starts.attempt = none) :
    Driven (s.inputs.ign.sample.getD false) (settledTracking s) := by
  have lock : (settledTracking s).duty.lockTimer.isSome = false ∨ (settledTracking s).duty.clutch = .slipping := by
    rw [settledTracking_eq]
    by_cases slips : settledClutch s = .slipping
    · exact .inr slips
    · exact .inl (by simp [slips])
  rcases settledEngine_cases s with ⟨ign, engine⟩ | ⟨ign, engine | engine | engine⟩
  all_goals
    refine ⟨⟨?_, ?_, lock⟩, ?_, ?_⟩
    all_goals simp [settledTracking_eq, settledClutch, engine, ign, closed, attemptFits, Engine.fed, Engine.turning]
  cases s.inputs.clu.sample.getD false <;> simp

theorem Tracks.settled {s : State} (h : Tracks s) (settling : s.clock.power = .settle) : Tracks (endSettle s) := by
  have asleep : s.awake = false := by simp [State.awake, settling]
  have off : s.duty.engine = .off := h.awake.resolve_left (by simp [asleep])
  have train := settledTracking_driven (h.closed (by simp [off]))
  have shown : Tracks (settledShown s) := by
    rw [settledShown_eq]
    refine Driven.tracks ⟨train.toDrivetrain.of_duty rfl, train.attempt, train.fed⟩ ?_ rfl
    rw [settledTracking_eq]
    rfl
  exact Tracks.askCommit (s := { raise .restored (.index (settledShown s).clock.outcome.code) (settledShown s) with
    clock.hold := true }) (shown.same)

theorem Tracks.woken {s : State} (h : Tracks s) (asleep : s.clock.power = .sleep) : Tracks (wake s) := by
  have notAwake := not_awake_of_sleep asleep
  have off : s.duty.engine = .off := h.awake.resolve_left (by simp [notAwake])
  have up : Tracks (formLampsAfresh (loadDoze { s with clock.power := .doze, clock.waking := false })) := by
    refine Driven.tracks (b := false) ⟨h.toDrivetrain.of_duty (by simp), ?_, ?_⟩ ?_ (by simp)
    · simpa using h.attempt
    · simp [off, Engine.fed]
    · simp [h.ignition, off, Engine.fed]
  unfold Machine.wake
  dsimp only
  split
  · exact Tracks.askCommit (up.same)
  · exact up

/-! ## The requests -/

theorem eventLaw_tracks : EventLaw Tracks where
  arbitrate h := h.same
  levelChange l b := .levelChange l b
  confirm := .takeConfirmExpiry
  lock := .takeLockExpiry
  freshness h := h.same
  doze := .takeDozeExpiry
  lampCheck h := h.same
  lampBoundary _ _ h := h.same
  tally o := .takeTally o
  checkpoint := .takeCheckpointTest
  stall sh b := .takeStall sh b
  pass _ _ h := h.same

theorem Tracks.swap (new : Settings) {s : State} (h : Tracks s) : Tracks (swap new s) := by
  have put : Tracks (swapIn new s) := by
    refine h.same rfl rfl rfl rfl rfl ?_ rfl
    show (rearmOut _ _ s.inputs).ign.level = _
    unfold rearmOut
    split
    · rfl
    · rfl
  refine eventLaw_tracks.swap (fun _ _ h => h.same) (fun old t ht => ?_) new (put.same)
  unfold rearmLamps
  split
  · exact ht.same rfl rfl rfl rfl rfl rfl rfl
  · exact ht

theorem Tracks.change {c : Instr} {f : Frame} {s u : State} (h : Tracks s) (change : Change c f s u) : Tracks u := by
  cases change with
  | swapped new => exact h.swap _
  | none => exact h
  | declared => exact h.same
  | opened =>
    unfold openNewHire
    exact (h.same (t := closeOpenHire .superseded s)).same rfl rfl rfl rfl rfl rfl rfl
  | closed => exact h.same
  | flagsCleared => exact h.same
  | cleared =>
    unfold clearAccounts
    exact h.same
  | serviced =>
    unfold changeSlot
    exact h.same
  | installed =>
    unfold changeSlot
    exact h.same
  | _ => exact h.same rfl rfl rfl rfl rfl rfl rfl

theorem runLaw_tracks : RunLaw Tracks where
  toEventLaw := eventLaw_tracks
  pins _ _ _ h := h.same rfl rfl rfl rfl rfl rfl rfl
  stop s other := tracks_stopped s (by rcases other with rfl | rfl | rfl <;> simp)
  restore b s := tracks_endRestore b s
  settle settling h := h.settled settling
  source w s h := by
    cases w <;> exact h.same rfl rfl rfl rfl rfl rfl rfl
  wake asleep h := h.woken asleep
  edge sh b := .takeEdge sh b
  sample l v s h := h.same rfl rfl rfl rfl rfl (by cases l <;> rfl) rfl
  tick v := .tickStep v
  completion r := .takeCompletion r
  gathered _ _ h := h.same rfl rfl rfl rfl rfl rfl rfl
  woken _ _ h := h.same rfl rfl rfl rfl rfl rfl rfl
  entered f s h := by
    unfold enterFrame
    split
    · exact h.same
    · exact h.same
  lineFree h := h.same rfl rfl rfl rfl rfl rfl rfl
  replySent := .sleepReplySent
  taken _ _ h := h.same rfl rfl rfl rfl rfl rfl rfl
  request _ work h := by
    obtain ⟨u, change, ends⟩ := work
    have changed := h.change change
    cases ends with
    | answered => exact changed.same rfl rfl rfl rfl rfl rfl rfl
    | deferred =>
      unfold deferReply
      exact Tracks.askCommit (changed.same rfl rfl rfl rfl rfl rfl rfl)
    | dropped => exact changed

/-- Settles O8: the law piece by piece. -/
theorem trackingFitsTogether : Obligations.TrackingFitsTogether := by
  intro s t h stepped
  rw [tracks_iff] at h ⊢
  exact runLaw_tracks.step (fun _ _ h => h.same rfl rfl rfl rfl rfl rfl rfl) h stepped

end Sys2Proof.Machine
end

section
/-! SLEEP is free of commits, and the transmission hold is backed by one (`Safety.rests`). -/

namespace Sys2Proof.Machine

set_option Elab.async false

open Sys2Proof Sys2Proof.Safety

/-- A commit is in flight that clears the hold, or that another one follows. -/
def Commit.clearsHold : Commit → Bool
  | .idle => false
  | .inFlight f => f.afterHold
  | .inFlightPending _ => true

/-- `Safety.rests`, part by part. -/
structure Rests (s : State) : Prop where
  commit : s.clock.power = .sleep → s.store.commit = .idle
  doze : s.clock.power = .sleep → s.clock.dozeDue = false
  second : s.clock.power = .sleep → s.clock.secondStep = false
  tally : s.clock.power = .sleep → s.clock.tallyDue = false
  pending : s.clock.power = .sleep → s.clock.sleep = none
  held : s.clock.hold = true → s.store.commit.clearsHold = true

theorem rests_eq (s : State) :
    rests s = ((s.clock.power != .sleep ||
      (s.store.commit == .idle && !s.clock.dozeDue && !s.clock.secondStep && !s.clock.tallyDue &&
        s.clock.sleep.isNone)) && (!s.clock.hold || s.store.commit.clearsHold)) := by
  unfold rests
  congr 2

theorem rests_iff (s : State) : rests s = true ↔ Rests s := by
  rw [rests_eq]
  constructor
  · intro h
    simp only [Bool.and_eq_true, Bool.or_eq_true, bne_iff_ne, beq_iff_eq, Bool.not_eq_true', Option.isNone_iff_eq_none]
      at h
    obtain ⟨asleep, held⟩ := h
    have quiet (p : s.clock.power = .sleep) := asleep.resolve_left (· p)
    exact ⟨fun p => (quiet p).1.1.1.1, fun p => (quiet p).1.1.1.2, fun p => (quiet p).1.1.2, fun p => (quiet p).1.2,
      fun p => (quiet p).2, fun on => held.resolve_left (by simp [on])⟩
  · rintro ⟨commit, doze, second, tally, pending, held⟩
    rw [Bool.and_eq_true]
    constructor
    · by_cases p : s.clock.power = .sleep
      · simp [commit p, doze p, second p, tally p, pending p]
      · simp [p]
    · by_cases on : s.clock.hold = true
      · simp [held on]
      · simp [on]

/-- Commit, hold and power state stand, and nothing falls due. -/
theorem Rests.same {s t : State} (h : Rests s) (power : t.clock.power = s.clock.power := by simp)
    (hold : t.clock.hold = s.clock.hold := by simp) (commit : t.store.commit = s.store.commit := by simp)
    (doze : s.clock.dozeDue = false → t.clock.dozeDue = false := by simp)
    (second : s.clock.secondStep = false → t.clock.secondStep = false := by simp)
    (tally : s.clock.tallyDue = false → t.clock.tallyDue = false := by simp)
    (pending : s.clock.sleep = none → t.clock.sleep = none := by simp) : Rests t where
  commit p := commit.trans (h.commit (power.symm.trans p))
  doze p := doze (h.doze (power.symm.trans p))
  second p := second (h.second (power.symm.trans p))
  tally p := tally (h.tally (power.symm.trans p))
  pending p := pending (h.pending (power.symm.trans p))
  held on := by rw [commit]; exact h.held (hold.symm.trans on)

theorem not_sleep_of_awake {s : State} (awake : s.awake = true) : s.clock.power ≠ .sleep := fun p => by
  rw [not_awake_of_sleep p] at awake
  cases awake

/-! ## Sleep pending and commits -/

theorem Rests.reloadDoze {s : State} (h : Rests s) : Rests (reloadDoze s) := by
  unfold Machine.reloadDoze
  split
  · exact h.same (doze := fun _ => rfl)
  · exact h

theorem Rests.cancelSleep {s : State} (h : Rests s) : Rests (cancelSleep s) := by
  unfold Machine.cancelSleep
  split
  · exact Rests.reloadDoze (h.same (pending := fun _ => rfl))
  · exact h

theorem Rests.enterSleep {s : State} (h : Rests s) (idle : s.store.commit = .idle) : Rests (enterSleep s) where
  commit _ := idle
  doze _ := rfl
  second _ := rfl
  tally _ := rfl
  pending _ := rfl
  held := h.held

theorem Rests.sleepTest {s : State} (h : Rests s) : Rests (sleepTest s) := by
  unfold Machine.sleepTest
  split
  · split
    · split
      · split
        · next idle => exact h.enterSleep idle
        · exact h
      · exact h.cancelSleep
    · exact h
  · exact h

/-- The clock and the commit stand. -/
theorem Rests.still {s t : State} (h : Rests s) (clock : t.clock = s.clock := by rfl)
    (commit : t.store.commit = s.store.commit := by rfl) : Rests t :=
  h.same (by rw [clock]) (by rw [clock]) commit (by rw [clock]; exact id) (by rw [clock]; exact id)
    (by rw [clock]; exact id) (by rw [clock]; exact id)

/-- Outside SLEEP the law is that of the hold. -/
theorem rests_of_up {s : State} (up : s.clock.power ≠ .sleep)
    (held : s.clock.hold = true → s.store.commit.clearsHold = true) : Rests s :=
  ⟨fun p => absurd p up, fun p => absurd p up, fun p => absurd p up, fun p => absurd p up, fun p => absurd p up, held⟩

/-- Commit and hold stand, and the part is not in SLEEP. -/
theorem Rests.up {s t : State} (h : Rests s) (power : t.clock.power ≠ .sleep)
    (hold : t.clock.hold = s.clock.hold := by simp) (commit : t.store.commit = s.store.commit := by simp) : Rests t :=
  rests_of_up power fun on => by rw [commit]; exact h.held (hold.symm.trans on)

theorem completionReaches_hold (ok : Bool) (w : Option (Nat × Area)) (n : Option Nat) (after : Bool) (s : State) :
    (completionReaches ok w n after s).clock.hold = (s.clock.hold && !(ok && after) && (ok || s.store.anyUsable)) := by
  rw [completionReaches_eq]

/-- A commit that starts outside SLEEP leaves the law, whatever was held before. -/
theorem rests_beginCommit {s : State} (up : s.clock.power ≠ .sleep) : Rests (beginCommit s) := by
  unfold beginCommit
  dsimp only
  split
  · exact rests_of_up up fun on => on
  · next none' =>
    have spent : s.store.anyUsable = false := (nextArea_eq_none_iff _).1 none'
    refine Rests.sleepTest (rests_of_up (by simpa using up) fun on => ?_)
    have spent' : Store.anyUsable { s.store with lastStart := some s.clock.time, commit := .idle } = false := spent
    simp [completionReaches_hold, spent'] at on

theorem rests_askCommit {s : State} (up : s.clock.power ≠ .sleep) : Rests (askCommit s) := by
  unfold askCommit
  split
  · exact rests_beginCommit up
  · exact rests_of_up up fun _ => rfl
  · next f pending => exact rests_of_up up fun _ => by rw [pending]; rfl

/-- What a completion reaches, and the commit that follows it or the hold that has ended. -/
theorem rests_completed {u : State} {again : Bool} (up : u.clock.power ≠ .sleep)
    (ended : again = false → u.clock.hold = false) : Rests (sleepTest (if again then beginCommit (bindNext u) else u)) := by
  cases again with
  | true => exact Rests.sleepTest (rests_beginCommit (by simpa using up))
  | false =>
    refine Rests.sleepTest (rests_of_up up fun on => ?_)
    rw [if_neg Bool.false_ne_true, ended rfl] at on
    cases on

theorem Rests.takeCompletion {s : State} (r : CommitResult) (h : Rests s) : Rests (takeCompletion r s) := by
  have up (busy : s.store.commit ≠ .idle) : s.clock.power ≠ .sleep := fun p => busy (h.commit p)
  have completed (f : Flight) (waits : Bool) (busy : s.store.commit ≠ .idle)
      (held : s.clock.hold = true → waits = false → f.afterHold = true) : Rests (completeCommit f waits r s) := by
    cases r with
    | verified =>
      rw [completeCommit_verified]
      refine rests_completed (by simpa [verifiedBy] using up busy) fun alone => ?_
      rw [verifiedBy, completionReaches_hold]
      cases on : s.clock.hold with
      | false => simp
      | true => simp [held on alone]
    | failed left =>
      rw [completeCommit_failed]
      refine rests_completed (by simpa [failedBy] using up busy) fun once => ?_
      exact (Bool.or_eq_false_iff.mp once).2
  unfold Machine.takeCompletion
  split
  · exact h
  · next f flying =>
    exact completed f false (by simp [flying]) fun on _ => by
      have clears := h.held on
      rwa [flying] at clears
  · next f pending => exact completed f true (by simp [pending]) fun _ waits => by cases waits

theorem Rests.takeCheckpointTest {s : State} (h : Rests s) : Rests (takeCheckpointTest s) := by
  unfold Machine.takeCheckpointTest
  dsimp only
  split
  · next due =>
    have up : s.clock.power ≠ .sleep := fun p => by rw [h.second p] at due; cases due
    split
    · exact rests_askCommit up
    · exact h.up up
  · exact h

theorem Rests.takeDozeExpiry {s : State} (h : Rests s) : Rests (takeDozeExpiry s) := by
  unfold Machine.takeDozeExpiry
  dsimp only
  split
  · next due =>
    have up : s.clock.power ≠ .sleep := fun p => by rw [h.doze p] at due; cases due
    split
    · split
      · exact rests_askCommit up
      · exact h.up up
    · exact Rests.reloadDoze (h.up up)
  · exact h

theorem Rests.sleepReplySent {s : State} (h : Rests s) : Rests (sleepReplySent s) :=
  Rests.sleepTest (h.same (pending := fun none' => by simp [none']))

/-! ## Lines, channels and ticks -/

theorem rests_autoClose {s : State} (h : Rests s) (up : s.clock.power ≠ .sleep) : Rests (autoClose s) := by
  unfold autoClose
  split
  · exact h
  · split
    · exact rests_askCommit (by simpa using up)
    · exact h

theorem Rests.ignitionChanged {s : State} (active hireFirst : Bool) (h : Rests s) :
    Rests (ignitionChanged active hireFirst s) := by
  unfold Machine.ignitionChanged
  split
  · have on : Rests (powerIgnition true s) := h.cancelSleep.up (by simp [powerIgnition]) (by simp [powerIgnition])
      (by simp [powerIgnition])
    exact Rests.same (on.same (t := engineIgnition true (powerIgnition true s)))
  · have dozes : (powerIgnition false s).clock.power ≠ .sleep := by simp [powerIgnition]
    have off : Rests (powerIgnition false s) := h.cancelSleep.up dozes (by simp [powerIgnition])
      (by simp [powerIgnition])
    unfold ignitionOff
    split
    · exact (rests_autoClose off dozes).same
    · exact rests_autoClose (off.same) (by simpa using dozes)

theorem Rests.levelChange (l : SwitchLine) (b : Bool) {s : State} (h : Rests s) : Rests (takeLevelChange l b s) := by
  unfold takeLevelChange
  dsimp only
  split
  · have changed (i : Inputs) : Rests { s with inputs := i } := h.still
    have cranked {b : Bool} {t : State} (ht : Rests t) : Rests (engineCrank b t) := ht.same
    have pedalled {b : Bool} {t : State} (ht : Rests t) : Rests (clutchPedal b t) := ht.same
    cases l with
    | ign => exact (changed _).ignitionChanged _ _
    | crk =>
      have powered (i : Inputs) : Rests (powerCrank { s with inputs := i }) := (changed i).cancelSleep.reloadDoze
      exact cranked (powered _)
    | clu => exact pedalled (changed _)
    | rvs => exact changed _
  · exact h

theorem Rests.takeStall (sh : Shaft) (b : Bool) {s : State} (h : Rests s) : Rests (takeStall sh b s) := by
  unfold Machine.takeStall
  dsimp only
  split
  · exact h
  · split
    · exact h.same
    · exact h

theorem Rests.takeEdge (sh : Shaft) (b : Bool) {s : State} (h : Rests s) : Rests (takeEdge sh b s) := by
  have counted {t : State} (ht : Rests t) : Rests (countEdge sh t) := by
    cases sh <;> exact ht.still
  unfold Machine.takeEdge
  split
  · split
    · have put := counted (h.same (t := putChannel sh
        ((s.inputs.channel sh).edge (s.config.armed.channel sh) s.inputs.captureUs) b s))
      unfold acceptAwake dozeEdge
      dsimp only
      split
      · split
        · split
          · exact put.cancelSleep
          · exact put.reloadDoze
        · exact put.reloadDoze
      · exact put
      · exact put
    · unfold acceptAsleep
      dsimp only
      split
      · exact Rests.same (h.still (t := countEdge .out { s with inputs.out.lastEdge := some s.inputs.captureUs }))
      · exact h.still
  · exact h

theorem Rests.takeTally (o : TallyOrder) {s : State} (h : Rests s) : Rests (takeTally o s) := by
  refine takeTally_keeps o h (h.same (tally := fun _ => rfl))
    (fun _ _ ht => ht.same (t := tallyMeters _ _) (by simp [drainOut]) (by simp [drainOut]) (by simp [drainOut])
      (by simp [drainOut]) (by simp [drainOut]) (by simp [drainOut]) (by simp [drainOut]))
    (fun ht => ht.same) (fun _ _ ht => ht.same) fun {t} ht => ?_
  have stream (st : Option Stream) (r : Option (List Field)) : Rests { t with link.stream := st, link.report := r } :=
    ht.same
  unfold streamTally
  split
  · exact ht
  · split
    · exact stream _ _
    · split
      · exact stream _ _
      · split
        · exact Rests.same (stream none (some (reportFields t)))
        · exact stream _ _

theorem Rests.instantOver {s : State} (h : Rests s) : Rests (instantOver s) := by
  refine h.same (pending := fun none' => ?_)
  simp [Machine.instantOver, none']

theorem Rests.tickTimers {s : State} (h : Rests s) : Rests (tickTimers s) := by
  have metered : Rests (stepTimers (stepMeterTime (Machine.instantOver { s with inputs.tickUs := 0 }))) := by
    by_cases p : s.clock.power = .sleep
    · have asleep := not_awake_of_sleep p
      have deaf : State.awake (Machine.instantOver { s with inputs.tickUs := 0 }) = false := asleep
      refine h.instantOver.same rfl rfl rfl id (fun off => ?_) (fun off => ?_) id
      · simpa [stepTimers, stepMeterTime, deaf] using off
      · simpa [stepTimers, stepMeterTime, deaf] using off
    · exact h.up p rfl rfl
  unfold Machine.tickTimers stepDoze
  split
  · next dozes _ =>
    split
    · exact metered
    · exact metered.up (by rw [dozes]; simp)
  · exact metered

theorem Rests.tickStep (v : Nat) {s : State} (h : Rests s) : Rests (tickStep v s) := by
  rw [tickStep_eq]
  unfold takeSample
  split
  · next sensing =>
    have up : (Machine.tickTimers s).clock.power ≠ .sleep := fun p => by
      simp [State.sensing, State.awake, p] at sensing
    have sampled : Rests { Machine.tickTimers s with
        inputs.vbat := vbatSample v,
        starts.attempt := (Machine.tickTimers s).starts.attempt.map (Attempt.sample (vbatSample v)) } :=
      h.tickTimers.same
    unfold testSupply
    dsimp only
    split
    · split
      · exact rests_askCommit (by simpa using up)
      · exact sampled
    · split
      · exact sampled.same
      · exact sampled
  · exact h.tickTimers

/-! ## Start-up, wake and the requests -/

theorem rests_stopped {p : Power} (s : State) (up : p ≠ .sleep) : Rests (stopped p s) :=
  rests_of_up up fun on => by cases on

theorem rests_endRestore (b : Bool) (s : State) : Rests (endRestore b s) := by
  rcases endRestore_cases b s with h | ⟨a, i, -, h⟩
  · rw [h]
    exact rests_of_up (by simp [stopped]) fun on => by cases on
  · rw [h]
    exact rests_of_up (by simp [restoreImage, stopped]) fun on => by cases on

theorem rests_endSettle (s : State) : Rests (endSettle s) := by
  have up : (settledShown s).clock.power ≠ .sleep := by
    rw [settledShown_eq]
    cases s.inputs.ign.sample.getD false <;> simp
  exact rests_askCommit (s := { raise .restored (.index (settledShown s).clock.outcome.code) (settledShown s) with
    clock.hold := true }) (by simpa using up)

theorem Rests.woken {s : State} (h : Rests s) : Rests (wake s) := by
  have dozes : (formLampsAfresh (loadDoze { s with clock.power := .doze, clock.waking := false })).clock.power ≠ .sleep := by
    simp
  unfold wake
  dsimp only
  split
  · exact rests_askCommit dozes
  · exact h.up dozes

theorem restall_clock (sh : Shaft) (old : Settings) (b : Bool) (s : State) :
    (restall sh old b s).clock = s.clock ∧ (restall sh old b s).store = s.store := by
  unfold restall
  split
  · exact ⟨rfl, rfl⟩
  · simp

theorem restallAll_clock (old : Settings) (s : State) :
    (restallAll old s).clock = s.clock ∧ (restallAll old s).store = s.store := by
  unfold restallAll
  dsimp only
  split
  · simp [restall_clock]
  · simp [restall_clock]

theorem rearmTimers_clock (old : Settings) (s : State) :
    (rearmTimers old s).clock = s.clock ∧ (rearmTimers old s).store = s.store := by
  have confirmed : (if old.engine = s.config.armed.engine then s else takeConfirmExpiry s).clock = s.clock ∧
      (if old.engine = s.config.armed.engine then s else takeConfirmExpiry s).store = s.store := by
    split
    · exact ⟨rfl, rfl⟩
    · simp
  unfold rearmTimers
  dsimp only
  split
  · exact confirmed
  · simpa using confirmed

theorem rearmLamps_clock (old : Settings) (s : State) :
    (rearmLamps old s).clock = s.clock ∧ (rearmLamps old s).store = s.store := by
  unfold rearmLamps
  split
  · exact ⟨rfl, rfl⟩
  · exact ⟨rfl, rfl⟩

theorem swap_clock (new : Settings) (s : State) : (swap new s).clock = s.clock ∧ (swap new s).store = s.store := by
  simp [swap, rearmTimers_clock, restallAll_clock, rearmLamps_clock]

/-- A request changes no part of the clock, but SLEEP the sleep pending; none starts a commit by itself. -/
theorem Change.clock {c : Instr} {f : Frame} {s u : State} (change : Change c f s u) :
    (u.clock = s.clock ∨ u = pendSleep s) ∧ u.store = s.store := by
  cases change with
  | swapped new => exact ⟨.inl (swap_clock _ s).1, (swap_clock _ s).2⟩
  | opened => exact ⟨.inl (by simp [openNewHire]), by simp [openNewHire]⟩
  | closed => exact ⟨.inl (by simp), by simp⟩
  | declared => exact ⟨.inl (by simp), by simp⟩
  | flagsCleared => exact ⟨.inl (by simp), by simp⟩
  | cleared => exact ⟨.inl (by simp [clearAccounts]), by simp [clearAccounts]⟩
  | serviced => exact ⟨.inl (by simp [changeSlot]), by simp [changeSlot]⟩
  | installed => exact ⟨.inl (by simp [changeSlot]), by simp [changeSlot]⟩
  | slept => exact ⟨.inr rfl, rfl⟩
  | _ => exact ⟨.inl rfl, rfl⟩

theorem Change.power {c : Instr} {f : Frame} {s u : State} (change : Change c f s u) :
    u.clock.power = s.clock.power := by
  rcases change.clock.1 with same | rfl
  · rw [same]
  · rfl

theorem Rests.change {c : Instr} {f : Frame} {s u : State} (h : Rests s) (awake : s.awake = true)
    (change : Change c f s u) : Rests u := by
  obtain ⟨clock, store⟩ := change.clock
  rcases clock with same | rfl
  · exact h.still same (by rw [store])
  · exact h.up (not_sleep_of_awake (s := s) awake) rfl rfl

theorem runLaw_rests : RunLaw Rests where
  arbitrate h := h.same
  levelChange l b := .levelChange l b
  confirm h := h.same
  lock h := h.same
  freshness h := h.same
  doze := .takeDozeExpiry
  lampCheck h := h.same
  lampBoundary _ _ h := h.same
  tally o := .takeTally o
  checkpoint := .takeCheckpointTest
  stall sh b := .takeStall sh b
  pass _ _ h := Rests.instantOver (h.same)
  pins _ _ _ h := h.same rfl rfl rfl id id id id
  stop s other := rests_stopped s (by rcases other with rfl | rfl | rfl <;> simp)
  restore b s := rests_endRestore b s
  settle _ _ := rests_endSettle _
  source w s h := by
    cases w <;> exact h.same rfl rfl rfl id id id id
  wake _ h := h.woken
  edge sh b := .takeEdge sh b
  sample _ _ _ h := h.still
  tick v := .tickStep v
  completion r := .takeCompletion r
  gathered _ _ h := h.still
  woken _ _ h := h.same rfl rfl rfl id id id id
  entered f s h := by
    unfold enterFrame
    split
    · exact Rests.reloadDoze (Rests.cancelSleep (h.same))
    · exact h.same
  lineFree h := h.still
  replySent := .sleepReplySent
  taken _ _ h := h.still
  request awake work h := by
    obtain ⟨u, change, ends⟩ := work
    have changed := h.change awake change
    cases ends with
    | answered => exact changed.still
    | deferred =>
      unfold deferReply
      exact rests_askCommit (change.power ▸ not_sleep_of_awake awake)
    | dropped => exact changed

/-- Settles O9: the law piece by piece. -/
theorem sleepAndHoldAreSound : Obligations.SleepAndHoldAreSound := by
  intro s t h stepped
  rw [rests_iff] at h ⊢
  exact runLaw_rests.step (fun _ _ h => h.still) h stepped

end Sys2Proof.Machine
end

section
/-! What each command leaves as it is. -/

namespace Sys2Proof.Machine

set_option Elab.async false

open Sys2Proof Sys2Proof.Safety

/-! ## What the commands that no event of the vehicle is taken in leave -/

/-- The accounts, logs and meters, the engine, the levels and the instant stand. -/
structure Parked (s t : State) : Prop where
  slots : t.table.slots = s.table.slots
  history : t.hires.history = s.hires.history
  current : t.hires.current = s.hires.current
  idle : t.hires.idle = s.hires.idle
  log : t.starts.log = s.starts.log
  life : t.starts.life = s.starts.life
  nextStart : t.starts.next = s.starts.next
  meters : t.duty.meters = s.duty.meters
  outPending : t.inputs.outPending = s.inputs.outPending
  engine : t.duty.engine = s.duty.engine
  attempt : t.starts.attempt = s.starts.attempt
  ign : t.inputs.ign.level = s.inputs.ign.level
  crk : t.inputs.crk.level = s.inputs.crk.level
  clu : t.inputs.clu.level = s.inputs.clu.level
  rvs : t.inputs.rvs.level = s.inputs.rvs.level
  captureUs : t.inputs.captureUs = s.inputs.captureUs

namespace Parked

theorem of_same {s t : State} (slots : t.table.slots = s.table.slots := by simp)
    (history : t.hires.history = s.hires.history := by simp) (current : t.hires.current = s.hires.current := by simp)
    (idle : t.hires.idle = s.hires.idle := by simp) (starts : t.starts = s.starts := by simp)
    (meters : t.duty.meters = s.duty.meters := by simp) (outPending : t.inputs.outPending = s.inputs.outPending := by simp)
    (engine : t.duty.engine = s.duty.engine := by simp) (ign : t.inputs.ign.level = s.inputs.ign.level := by simp)
    (crk : t.inputs.crk.level = s.inputs.crk.level := by simp) (clu : t.inputs.clu.level = s.inputs.clu.level := by simp)
    (rvs : t.inputs.rvs.level = s.inputs.rvs.level := by simp)
    (captureUs : t.inputs.captureUs = s.inputs.captureUs := by simp) : Parked s t :=
  ⟨slots, history, current, idle, by rw [starts], by rw [starts], by rw [starts], meters, outPending, engine,
    by rw [starts], ign, crk, clu, rvs, captureUs⟩

theorem trans {s t u : State} (h : Parked s t) (k : Parked t u) : Parked s u :=
  ⟨k.slots.trans h.slots, k.history.trans h.history, k.current.trans h.current, k.idle.trans h.idle,
    k.log.trans h.log, k.life.trans h.life, k.nextStart.trans h.nextStart, k.meters.trans h.meters,
    k.outPending.trans h.outPending, k.engine.trans h.engine, k.attempt.trans h.attempt, k.ign.trans h.ign,
    k.crk.trans h.crk, k.clu.trans h.clu, k.rvs.trans h.rvs, k.captureUs.trans h.captureUs⟩

theorem refl (s : State) : Parked s s := of_same rfl rfl rfl rfl rfl rfl rfl rfl rfl rfl rfl rfl rfl

end Parked

/-! ## What a command leaves -/

/-- The command takes bytes from RX. -/
def receives : Instr → Bool
  | .frameReceived _ | .interByteTimeout _ | .frameDiscarded .. => true
  | _ => false

/-- O3's words for one command, from one state to another. -/
structure Left (c : Instr) (s t : State) : Prop where
  config : c ∉ [.enterSetup, .setItem, .arm, .abandon, .loadDefaults] → t.config = s.config
  store : (∀ r, c ≠ .commitComplete r) →
    t.store.areas = s.store.areas ∧ t.store.usable = s.store.usable ∧ t.store.faultSeen = s.store.faultSeen ∧
      t.hires.secured = s.hires.secured
  slots : drives c = false → c ∉ [.recordService, .installUnit, .clearAccounting] → t.table.slots = s.table.slots
  settled : c ∉ [.releaseHistory, .releaseIdle, .clearAccounting] → t.hires.settled = s.hires.settled
  released : c ∉ [.releaseHistory, .clearAccounting] → t.hires.released = s.hires.released
  next : c ≠ .openHire → t.hires.next = s.hires.next
  history : drives c = false → c ∉ [.openHire, .closeHire, .releaseHistory, .clearAccounting] →
    t.hires.history = s.hires.history
  current : drives c = false → c ∉ [.openHire, .closeHire, .suspendHire, .resumeHire] →
    t.hires.current = s.hires.current
  idle : drives c = false → c ∉ [.releaseIdle, .clearAccounting] → t.hires.idle = s.hires.idle
  records : drives c = false → c ≠ .clearAccounting →
    t.starts.log = s.starts.log ∧ t.starts.life = s.starts.life ∧ t.starts.next = s.starts.next ∧
      t.duty.meters = s.duty.meters ∧ t.inputs.outPending = s.inputs.outPending
  tracking : drives c = false →
    t.duty.engine = s.duty.engine ∧ t.starts.attempt = s.starts.attempt ∧
      (∀ l, (t.inputs.line l).level = (s.inputs.line l).level) ∧ t.inputs.captureUs = s.inputs.captureUs
  declared : c ≠ .declareCondition → t.duty.load = s.duty.load ∧ t.duty.coolant = s.duty.coolant
  readings : (∀ v, c ≠ .meterTick v) →
    t.clock.time = s.clock.time ∧ t.clock.phase = s.clock.phase ∧ t.inputs.vbat = s.inputs.vbat ∧
      t.inputs.supply = s.inputs.supply
  mask : c ≠ .noticeMask → ∀ f, (t.link.flags.get f).enabled = (s.link.flags.get f).enabled
  flags : c ≠ .clearFlags → ∀ f, (s.link.flags.get f).set.isSome = true →
    (t.link.flags.get f).set = (s.link.flags.get f).set
  queue : takesFrame c = false → receives c = false → t.link.queue = s.link.queue
  supplyOn : t.clock.supplyOn = s.clock.supplyOn
  resetnHigh : t.clock.resetnHigh = s.clock.resetnHigh
  baudselHigh : t.link.baudselHigh = s.link.baudselHigh

theorem Undisturbed.takeEdge (sh : Shaft) (b : Bool) (s : State) : Undisturbed s (takeEdge sh b s) := by
  have counted (c : Shaft) (t : State) : Undisturbed t (countEdge c t) := by
    cases c with
    | eng => exact .refl t
    | inp => exact .refl t
    | out =>
      simp only [countEdge, countRevolution]
      split
      · exact .of_readings
      · exact .of_readings
  unfold Machine.takeEdge
  split
  · split
    · have put := (of_readings (s := s) (t := putChannel sh
        ((s.inputs.channel sh).edge (s.config.armed.channel sh) s.inputs.captureUs) b s)).trans (counted sh _)
      unfold acceptAwake
      dsimp only
      split
      · exact put.trans .of_readings
      · exact put
      · exact put
    · have seen := (of_readings (s := s) (t := { s with inputs.out.lastEdge := some s.inputs.captureUs })).trans
        (counted .out _)
      unfold acceptAsleep
      dsimp only
      split
      · exact seen.trans .of_readings
      · exact seen
  · exact .refl s

namespace Left

variable {c : Instr} {s t u : State}

/-- A steady event under which the readings stand, and, where no event of the vehicle is taken, all else. -/
theorem of_steady (steady : Steady s t) (readings : (∀ v, c ≠ .meterTick v) → Undisturbed s t)
    (parked : drives c = false → Parked s t) : Left c s t where
  config _ := steady.config
  store _ := ⟨steady.areas, steady.usable, steady.faultSeen, steady.secured⟩
  slots still _ := (parked still).slots
  settled _ := steady.settled
  released _ := steady.released
  next _ := steady.next
  history still _ := (parked still).history
  current still _ := (parked still).current
  idle still _ := (parked still).idle
  records still _ :=
    ⟨(parked still).log, (parked still).life, (parked still).nextStart, (parked still).meters, (parked still).outPending⟩
  tracking still :=
    ⟨(parked still).engine, (parked still).attempt,
      fun l => by
        cases l with
        | ign => exact (parked still).ign
        | crk => exact (parked still).crk
        | clu => exact (parked still).clu
        | rvs => exact (parked still).rvs,
      (parked still).captureUs⟩
  declared _ := ⟨steady.load, steady.coolant⟩
  readings other := ⟨(readings other).time, (readings other).phase, (readings other).vbat, (readings other).supply⟩
  mask _ f := (steady.flags f).1
  flags _ f := (steady.flags f).2
  queue _ _ := steady.queue
  supplyOn := steady.supplyOn
  resetnHigh := steady.resetnHigh
  baudselHigh := steady.baudselHigh

theorem refl (c : Instr) (s : State) : Left c s s :=
  of_steady (.refl s) (fun _ => .refl s) (fun _ => .refl s)

theorem trans (h : Left c s t) (k : Left c t u) : Left c s u where
  config hc := (k.config hc).trans (h.config hc)
  store hc := by
    obtain ⟨areas, usable, fault, secured⟩ := h.store hc
    obtain ⟨areas', usable', fault', secured'⟩ := k.store hc
    exact ⟨areas'.trans areas, usable'.trans usable, fault'.trans fault, secured'.trans secured⟩
  slots hd hc := (k.slots hd hc).trans (h.slots hd hc)
  settled hc := (k.settled hc).trans (h.settled hc)
  released hc := (k.released hc).trans (h.released hc)
  next hc := (k.next hc).trans (h.next hc)
  history hd hc := (k.history hd hc).trans (h.history hd hc)
  current hd hc := (k.current hd hc).trans (h.current hd hc)
  idle hd hc := (k.idle hd hc).trans (h.idle hd hc)
  records hd hc := by
    obtain ⟨log, life, next, meters, out⟩ := h.records hd hc
    obtain ⟨log', life', next', meters', out'⟩ := k.records hd hc
    exact ⟨log'.trans log, life'.trans life, next'.trans next, meters'.trans meters, out'.trans out⟩
  tracking hd := by
    obtain ⟨engine, attempt, levels, instant⟩ := h.tracking hd
    obtain ⟨engine', attempt', levels', instant'⟩ := k.tracking hd
    exact ⟨engine'.trans engine, attempt'.trans attempt, fun l => (levels' l).trans (levels l), instant'.trans instant⟩
  declared hc := ⟨(k.declared hc).1.trans (h.declared hc).1, (k.declared hc).2.trans (h.declared hc).2⟩
  readings hc := by
    obtain ⟨time, phase, vbat, supply⟩ := h.readings hc
    obtain ⟨time', phase', vbat', supply'⟩ := k.readings hc
    exact ⟨time'.trans time, phase'.trans phase, vbat'.trans vbat, supply'.trans supply⟩
  mask hc f := (k.mask hc f).trans (h.mask hc f)
  flags hc f set := by
    have kept := h.flags hc f set
    exact (k.flags hc f (by rw [kept]; exact set)).trans kept
  queue hf hr := (k.queue hf hr).trans (h.queue hf hr)
  supplyOn := k.supplyOn.trans h.supplyOn
  resetnHigh := k.resetnHigh.trans h.resetnHigh
  baudselHigh := k.baudselHigh.trans h.baudselHigh

theorem arbitrate (h : Left c s t) : Left c s (arbitrate t) :=
  h.trans (of_steady (.arbitrate t) (fun _ => .arbitrate t) (fun _ => .of_same))

theorem askCommit (h : Left c s t) : Left c s (askCommit t) :=
  h.trans (of_steady (.askCommit t) (fun _ => .askCommit t) (fun _ => .of_same))

/-! ## Requests -/

/-- The frame leaves the queue. -/
theorem taken (takes : takesFrame c = true) (rest : List Frame) (s : State) :
    Left c s { s with link.queue := rest } :=
  { refl c s with queue := fun other _ => by rw [takes] at other; cases other }

/-- What is done in a state, of which only the reply buffer may then change. -/
theorem ends {f : Frame} (h : Left c s u) (e : Ends f u t) : Left c s t := by
  cases e with
  | answered => exact { h with }
  | deferred =>
    unfold deferReply
    exact askCommit { h with }
  | dropped => exact h

/-- Flags raised. -/
theorem raised (f : Flag) (d : Detail) (s : State) : Left c s (raise f d s) :=
  of_steady (.raise f d s) (fun _ => .same) (fun _ => .of_same)

theorem formed (s : State) : Left c s (formLamps s) :=
  of_steady .same (fun _ => .of_readings) (fun _ => .of_same)

/-- Marks that have changed: their flags and the lamps. -/
theorem marked (before : Eight SlotMeters) (s : State) : Left c s (marksChanged before s) := by
  have formed : Steady (raiseMarks before s) (formLamps (raiseMarks before s)) := .same
  exact of_steady ((Steady.raiseMarks before s).trans formed) (fun _ => .same) (fun _ => .of_same)

/-- A hire closed by its own command or by its successor. -/
theorem closedHire (cause : CloseCause) (s : State) (c : Instr) (closes : c ∈ [.openHire, .closeHire]) :
    Left c s (closeOpenHire cause s) := by
  have others (cs : List Instr) (sub : [.openHire, .closeHire] ⊆ cs) : ¬ c ∉ cs := fun no => no (sub closes)
  have history (h : List Summary) (t : State) : Left c t { t with hires.history := h } :=
    { refl c t with history := fun _ no => absurd no (others _ (by simp)) }
  have appended (m : Summary) : Left c s (appendSummary m s) := by
    unfold appendSummary
    dsimp only
    split
    · split
      · exact (history _ s).trans (raised _ _ _)
      · exact history _ s
    · split
      · exact (history _ s).trans (raised _ _ _)
      · exact history _ s
  unfold closeOpenHire
  split
  · exact refl c s
  · exact { appended _ with current := fun _ no => absurd no (others _ (by simp)) }

theorem swapped (new : Settings) (s : State) : Left .arm s (swap new s) := by
  have calm : Undisturbed (swapIn new s) (swap new s) := by
    refine (eventLaw_undisturbed (swapIn new s)).swap (fun _ _ h => h.trans (.same rfl rfl)) (fun old t h => h.trans ?_)
      new .same
    unfold rearmLamps
    split
    · exact .same
    · exact .refl t
  have put : Left .arm s (swapIn new s) :=
    { refl .arm s with
      config := fun other => absurd other (by simp)
      slots := fun still => by cases still
      records := fun still => by cases still
      tracking := fun still => by cases still
      readings := fun _ => by
        refine ⟨rfl, rfl, ?_⟩
        show (rearmOut s.config.armed.chOut new.chOut s.inputs).vbat = _ ∧
          (rearmOut s.config.armed.chOut new.chOut s.inputs).supply = _
        unfold rearmOut
        split
        · exact ⟨rfl, rfl⟩
        · exact ⟨rfl, rfl⟩ }
  exact put.trans (of_steady (swap_steady new s) (fun _ => calm) (fun still => by cases still))

theorem changed {f : Frame} (change : Change c f s u) : Left c s u := by
  cases change with
  | none => exact refl c s
  | opened _ _ key =>
    have closed := closedHire .superseded s .openHire (by simp)
    exact { closed with
      next := fun other => absurd rfl other
      current := fun _ other => absurd other (by simp) }
  | closed => exact closedHire .hostClose s .closeHire (by simp)
  | suspended => exact { refl _ s with current := fun _ other => absurd other (by simp) }
  | resumed => exact { refl _ s with current := fun _ other => absurd other (by simp) }
  | released _ _ n =>
    have leaves (h : Hires) : (releaseThrough n h).current = h.current ∧ (releaseThrough n h).idle = h.idle ∧
        (releaseThrough n h).next = h.next ∧ (releaseThrough n h).secured = h.secured := by
      unfold releaseThrough
      dsimp only
      split
      · exact ⟨rfl, rfl, rfl, rfl⟩
      · exact ⟨rfl, rfl, rfl, rfl⟩
    obtain ⟨current, idle, next, secured⟩ := leaves s.hires
    exact { refl _ s with
      store := fun _ => ⟨rfl, rfl, rfl, secured⟩
      settled := fun other => absurd other (by simp)
      released := fun other => absurd other (by simp)
      next := fun _ => next
      history := fun _ other => absurd other (by simp)
      current := fun _ _ => current
      idle := fun _ _ => idle }
  | pooled =>
    exact { refl _ s with
      settled := fun other => absurd other (by simp)
      idle := fun _ other => absurd other (by simp) }
  | declared _ _ l t =>
    have said (d : Option Int) (fresh : Bool) (n : Nat) : Left .declareCondition s
        { s with duty.load := l, duty.coolant := d, duty.fresh := fresh, duty.freshTimer := n } :=
      { refl _ s with declared := fun other => absurd rfl other }
    unfold declare
    split
    · exact said ..
    · refine (said s.duty.coolant s.duty.fresh s.duty.freshTimer).trans ?_
      exact of_steady (Steady.goStale { s with duty.load := l }) (fun _ => .same) (fun _ => .of_same)
  | serviced _ _ k =>
    unfold changeSlot
    exact trans (t := { s with table.slots := s.table.slots.set k _ })
      { refl _ s with slots := fun _ other => absurd other (by simp) } (marked _ _)
  | installed _ _ k =>
    unfold changeSlot
    exact trans (t := { s with table.slots := s.table.slots.set k _ })
      { refl _ s with slots := fun _ other => absurd other (by simp) } (marked _ _)
  | swapped _ _ new => exact swapped _ s
  | setup => exact { refl _ s with config := fun other => absurd other (by simp) }
  | item => exact { refl _ s with config := fun other => absurd other (by simp) }
  | unchanged => exact { refl _ s with config := fun other => absurd other (by simp) }
  | abandoned => exact { refl _ s with config := fun other => absurd other (by simp) }
  | defaults => exact { refl _ s with config := fun other => absurd other (by simp) }
  | cleared =>
    refine trans (t := { s with
      table.slots := Eight.all blankSlot, hires := clearHires s.hires,
      starts.log := [], starts.life := zeroStarts, duty.meters := zeroMeters, inputs.outPending := 0 }) ?_ (formed _)
    exact { refl _ s with
      slots := fun _ other => absurd other (by simp)
      settled := fun other => absurd other (by simp)
      released := fun other => absurd other (by simp)
      history := fun _ other => absurd other (by simp)
      idle := fun _ other => absurd other (by simp)
      records := fun _ other => absurd rfl other }
  | slept => exact { refl _ s with }
  | restarted => exact { refl _ s with }
  | masked _ _ mask =>
    exact { refl _ s with
      mask := fun other => absurd rfl other
      flags := fun _ g _ => by rw [remask_get] }
  | flagsCleared _ _ mask =>
    exact { refl _ s with
      mask := fun _ g => by
        rw [clearFlagsIn_get]
        split
        · rw [FlagState.raised_enabled, clear_enabled]
        · rw [clear_enabled]
      flags := fun other => absurd rfl other }
  | streamStopped => exact { refl _ s with }
  | streamStarted => exact { refl _ s with }

/-! ## Reception and completions -/

/-- Bytes from RX reach the queue, a sleep pending and LINK_OVERRUN alone. -/
theorem received (receives : receives c = true) (items : List RxItem) (s : State) : Left c s (receive items s) := by
  have queued (rx : List RxItem) (q : List Frame) (t : State) : Left c t { t with link.rx := rx, link.queue := q } :=
    { refl c t with queue := fun _ other => by rw [receives] at other; cases other }
  have entered (f : Frame) (t : State) : Left c t (enterFrame f t) := by
    unfold enterFrame
    split
    · exact (queued t.link.rx _ t).trans
        (of_steady ((Steady.cancelSleep _).trans (.reloadDoze _)) (fun _ => .of_readings) (fun _ => .of_same))
    · exact raised _ _ _
  have all (fs : List Frame) (t : State) (h : Left c s t) : Left c s (fs.foldl (fun t f => enterFrame f t) t) := by
    induction fs generalizing t with
    | nil => exact h
    | cons f fs ih => exact ih _ (h.trans (entered f t))
  unfold receive
  split
  · exact all _ _ (queued _ s.link.queue s)
  · exact of_steady .same (fun _ => .of_readings) (fun _ => .of_same)

theorem completed (r : CommitResult) (s : State) : Left (.commitComplete r) s (takeCompletion r s) := by
  have flags (f : Flight) (waits : Bool) (flying : s.store.commit = .inFlight f ∨ s.store.commit = .inFlightPending f) :
      s.link.flags.Grows (completeCommit f waits r s).link.flags := by
    obtain ⟨u, reached, follows⟩ := completeCommit_reached waits r flying
    exact reached.flags.trans follows.flags
  have grows : s.link.flags.Grows (takeCompletion r s).link.flags := by
    unfold takeCompletion
    split
    · exact .refl _
    · next f flying => exact flags f false (.inl flying)
    · next f flying => exact flags f true (.inr flying)
  exact {
    config := fun _ => by simp
    store := fun other => absurd rfl (other r)
    slots := fun _ _ => by simp
    settled := fun _ => by simp
    released := fun _ => by simp
    next := fun _ => by simp
    history := fun _ _ => by simp
    current := fun _ _ => by simp
    idle := fun _ _ => by simp
    records := fun _ _ => by simp
    tracking := fun _ => ⟨by simp, by simp, fun l => by cases l <;> simp [Inputs.line], by simp⟩
    declared := fun _ => by simp
    readings := fun _ => by simp
    mask := fun _ f => (grows f).1
    flags := fun _ f => (grows f).2
    queue := fun _ _ => by simp
    supplyOn := by simp
    resetnHigh := by simp
    baudselHigh := by simp }

/-! ## Every command -/

/-- The readings stand at every event but the tick. -/
theorem event (steady : Steady s t) (calm : Undisturbed s t) (parked : drives c = false → Parked s t) : Left c s t :=
  of_steady steady (fun _ => calm) parked

theorem woken (s : State) : Left c s (wake s) := by
  have up : Undisturbed s (formLampsAfresh (loadDoze { s with clock.power := .doze, clock.waking := false })) :=
    ⟨by simp, by simp, by simp, by simp, fun _ => by simp [State.ticking, State.awake]⟩
  have calm : Undisturbed s (wake s) ∧ Parked s (wake s) := by
    unfold wake holdAndCommit
    dsimp only
    split
    · exact ⟨(up.trans (.of_readings)).trans (.askCommit _), .of_same⟩
    · exact ⟨up, .of_same⟩
  exact event (.wake s) calm.1 fun _ => calm.2

theorem settledEnd (s : State) : Left .settleEnd s (endSettle s) := by
  have shown : Undisturbed s (settledShown s) := by
    rw [settledShown_eq, settledTracking_eq]
    refine ⟨rfl, rfl, rfl, rfl, fun _ => ?_⟩
    cases s.inputs.ign.sample.getD false <;> rfl
  have restored : Undisturbed (settledShown s)
      { raise .restored (.index (settledShown s).clock.outcome.code) (settledShown s) with clock.hold := true } :=
    .of_readings
  exact event (.endSettle s) ((shown.trans restored).trans (.askCommit _)) fun still => by cases still

theorem sampled (l : SwitchLine) (high : Bool) (s : State) :
    Left (.switchLineSample l high) s (sampleAwake l high s) := by
  have changed := Undisturbed.takeLevelChange l false s
  refine event (.sampleAwake l high s) (changed.trans ?_) fun still => by cases still
  cases l with
  | ign => exact ⟨rfl, rfl, rfl, rfl, id⟩
  | crk => exact ⟨rfl, rfl, rfl, rfl, id⟩
  | clu => exact ⟨rfl, rfl, rfl, rfl, id⟩
  | rvs => exact ⟨rfl, rfl, rfl, rfl, id⟩

theorem sampledSettling (l : SwitchLine) (high : Bool) (s : State) :
    Left (.switchLineSample l high) s (sampleSettling l high s) := by
  refine event (.sampleSettling l high s) ?_ fun still => by cases still
  cases l with
  | ign => exact ⟨rfl, rfl, rfl, rfl, id⟩
  | crk => exact ⟨rfl, rfl, rfl, rfl, id⟩
  | clu => exact ⟨rfl, rfl, rfl, rfl, id⟩
  | rvs => exact ⟨rfl, rfl, rfl, rfl, id⟩

theorem watched (w : WakeSource) (s : State) : Left c s (takeWakeSource w s) := by
  refine event (.takeWakeSource w s) ?_ fun _ => ?_
  · cases w with
    | ignPin => exact ⟨rfl, rfl, rfl, rfl, id⟩
    | crkPin => exact ⟨rfl, rfl, rfl, rfl, id⟩
    | rxStartEdge => exact ⟨rfl, rfl, rfl, rfl, id⟩
  · cases w with
    | ignPin => exact .of_same rfl rfl rfl rfl rfl rfl rfl rfl rfl rfl rfl rfl rfl
    | crkPin => exact .of_same rfl rfl rfl rfl rfl rfl rfl rfl rfl rfl rfl rfl rfl
    | rxStartEdge => exact .of_same rfl rfl rfl rfl rfl rfl rfl rfl rfl rfl rfl rfl rfl

end Left

/-- The command leaves what is not its own. -/
theorem left_exec (c : Instr) (s : State) (running : startsUp c = false) : After (Left c s) (exec c s) := by
  have event : ∀ {due : Bool} {work : State → State}, Left c s (work s) → After (Left c s) (whenDue due work s) :=
    fun hw => after_whenDue (.refl c s) fun _ => hw.arbitrate
  by_cases hc : takesFrame c = true
  · refine exec_takesFrame hc (.refl c s) fun f rest t _ _ _ hw => ?_
    obtain ⟨u, change, ends⟩ := hw
    exact (((Left.taken hc rest s).trans (.changed change)).ends ends).arbitrate
  cases c with
  | powerOn => cases running
  | powerLoss => cases running
  | resetnLow => cases running
  | resetnRise => cases running
  | restoreStepEnd => cases running
  | transmitComplete => cases running
  | commitComplete r => exact event (.completed r s)
  | frameReceived bs => exact event (.received rfl _ s)
  | interByteTimeout bs => exact event (.received rfl _ s)
  | frameDiscarded bs b => exact event (.received rfl _ s)
  | meterTick v =>
    exact event (work := fun t => tickStep v (passTime (4000 - t.inputs.tickUs) t))
      (.of_steady ((Steady.passTime _ s).trans (.tickStep v _)) (fun other => absurd rfl (other v))
        (fun still => by cases still))
  | settleEnd => exact event (.settledEnd s)
  | pulseEdge sh tr us b =>
    have events := eventLaw_undisturbed s
    exact event (.event (.edgeAt sh tr us b s)
      (events.edgeAt sh tr us b (fun _ h => h.trans (.takeEdge sh b _)) (.refl s)) fun still => by cases still)
  | channelStall sh us b =>
    have events := eventLaw_undisturbed s
    exact event (work := fun t => takeStall sh b (passTo us t))
      (.event ((Steady.passTime _ s).trans (.takeStall sh b _)) (events.stall sh b (events.passTo us (.refl s)))
        fun still => by cases still)
  | lineLevelChange l b =>
    exact event (.event (.takeLevelChange l b s) (.takeLevelChange l b s) fun still => by cases still)
  | wakeSource w => exact event (.watched w s)
  | wakeComplete => exact event (.woken s)
  | tally o => exact event (.event (.takeTally o s) (.takeTally o s) fun still => by cases still)
  | checkpointDue => exact event (.event (.takeCheckpointTest s) (.takeCheckpointTest s) fun _ => .of_same)
  | confirmTimerExpiry => exact event (.event (.takeConfirmExpiry s) .same fun still => by cases still)
  | lockTimerExpiry => exact event (.event (.takeLockExpiry s) .same fun _ => .of_same)
  | freshnessExpiry => exact event (.event (.takeFreshnessExpiry s) .same fun _ => .of_same)
  | dozeTimerExpiry => exact event (.event (.takeDozeExpiry s) (.takeDozeExpiry s) fun _ => .of_same)
  | lampCheckExpiry => exact event (.event .same .of_readings fun _ => .of_same)
  | blinkPhaseBoundary m => exact event (.event .same .same fun _ => .of_same)
  | switchLineSample l b =>
    show After (Left _ s) (execSwitchLineSample l b s)
    unfold execSwitchLineSample
    split
    · exact after_settled (Left.sampled l b s).arbitrate
    · exact event (.sampledSettling l b s)
  | _ => exact absurd rfl hc

theorem takesFrame_eq_false {c : Instr} (none' : kindOfRequest c = none)
    (others : c ∉ [.unknownRequest, .replyKindFrameDrop]) : takesFrame c = false := by
  simp only [List.mem_cons, List.not_mem_nil, or_false, not_or] at others
  simp [takesFrame, none', others]

/-- Settles O3: command by command, by what its parts leave. -/
theorem commandsKeepWhatIsNotTheirs : Obligations.CommandsKeepWhatIsNotTheirs := by
  intro c s t stepped running
  have left := left_exec c s running t stepped
  refine ⟨left.config, left.store, left.slots, left.settled, left.released, left.next, left.history, left.current,
    left.idle, left.records, left.tracking, left.declared, left.readings, left.mask, left.flags,
    fun none' others frame timeout discarded => left.queue (takesFrame_eq_false none' others) ?_,
    left.supplyOn, left.resetnHigh, left.baudselHigh⟩
  cases c with
  | frameReceived b => exact absurd rfl (frame b)
  | interByteTimeout b => exact absurd rfl (timeout b)
  | frameDiscarded b l => exact absurd rfl (discarded b l)
  | _ => rfl

end Sys2Proof.Machine
end

section
/-! The receiver (R176, R177): what gathered bytes spell, and what a delivery brings. -/

namespace Sys2Proof.Machine

set_option Elab.async false

open Sys2Proof Sys2Proof.Safety

/-! ## Hunting and gathering -/

/-- Bytes as they arrive with their stop bits high. -/
def asItems (bs : List Byte) : List RxItem := bs.map .byte

theorem hunt_noise {noise : List Byte} (noSync : syncByte ∉ noise) (items : List RxItem) :
    hunt (asItems noise ++ items) = hunt items := by
  induction noise with
  | nil => rfl
  | cons b noise ih =>
    simp only [List.mem_cons, not_or] at noSync
    obtain ⟨other, noSync⟩ := noSync
    exact (if_neg (Ne.symm other)).trans (ih noSync)

theorem hunt_noise_nil {noise : List Byte} (noSync : syncByte ∉ noise) : hunt (asItems noise) = [] := by
  simpa [hunt] using hunt_noise noSync []

theorem hunt_sync (items : List RxItem) : hunt (.byte syncByte :: items) = .byte syncByte :: items := if_pos rfl

theorem receiveAll_of_hunt_nil {items : List RxItem} (nothing : hunt items = []) (n : Nat) :
    receiveAll n items = ([], []) := by
  cases n with
  | zero => simp [receiveAll, nothing]
  | succ n => simp [receiveAll, examine, nothing]

theorem goodBytes_append (bs : List Byte) (items : List RxItem) : goodBytes (asItems bs ++ items) = bs ++ goodBytes items := by
  induction bs with
  | nil => rfl
  | cons b bs ih => exact congrArg (b :: ·) ih

theorem goodBytes_asItems (bs : List Byte) : goodBytes (asItems bs) = bs := by
  simpa [goodBytes] using goodBytes_append bs []

/-- A frame that the receiver discards leaves what stood behind its SYNC to be examined again. -/
theorem receiveAll_discard {items rest : List RxItem} (spells : gatherFrame items = .discard rest) (n : Nat) :
    receiveAll (n + 1) (.byte syncByte :: items) = receiveAll n rest := by
  simp only [receiveAll, examine, hunt_sync, spells]

/-- A LEN above 248 is none (R177). -/
theorem gatherFrame_of_long {items : List RxItem} {len : Byte} {more : List Byte} (bytes : goodBytes items = len :: more)
    (long : 248 < len.toNat) : gatherFrame items = .discard items := by
  simp [gatherFrame, bytes, long]

/-- A gap or a low stop bit before the last byte cuts the frame (R177). -/
theorem gatherFrame_of_cut {items : List RxItem} {len : Byte} {more : List Byte} (bytes : goodBytes items = len :: more)
    (short : more.length < len.toNat + 4) (cut : more.length + 1 < items.length) :
    gatherFrame items = .discard items := by
  simp only [gatherFrame, bytes, List.length_cons, cut, decide_true, if_true, if_pos short, ite_self]

theorem gatherFrame_of_cut_at_once {items : List RxItem} (bytes : goodBytes items = []) (cut : items ≠ []) :
    gatherFrame items = .discard items := by
  have some' : 0 < items.length := List.length_pos_iff.mpr cut
  simp [gatherFrame, bytes, some']

/-- A first part of a frame waits for the rest. -/
theorem gatherFrame_of_part {len : Byte} {more : List Byte} (fits : ¬ 248 < len.toNat)
    (short : more.length < len.toNat + 4) : gatherFrame (asItems (len :: more)) = .incomplete := by
  have whole : ¬ (len :: more).length < (asItems (len :: more)).length := by simp [asItems]
  simp only [gatherFrame, goodBytes_asItems, fits, if_false, if_pos short, whole, decide_false, Bool.false_eq_true]

/-- A whole frame, by its CRC. -/
theorem gatherFrame_of_whole {kind tag high low len : Byte} {payload : List Byte} {after : List RxItem}
    (fits : ¬ 248 < len.toNat) (length : len.toNat = payload.length) :
    gatherFrame (asItems (len :: kind :: tag :: (payload ++ [high, low])) ++ after) =
      if high.toNat * 256 + low.toNat = crc16 (len :: kind :: tag :: payload) then .good ⟨kind, tag, payload⟩ after
      else .discard (asItems (len :: kind :: tag :: (payload ++ [high, low])) ++ after) := by
  have bytes : goodBytes (asItems (len :: kind :: tag :: (payload ++ [high, low])) ++ after) =
      len :: kind :: tag :: (payload ++ (high :: low :: goodBytes after)) := by
    rw [goodBytes_append]
    simp
  have long : ¬ (kind :: tag :: (payload ++ (high :: low :: goodBytes after))).length < len.toNat + 4 := by
    simp [length]
  have body : frameBody ⟨kind, tag, payload⟩ = len :: kind :: tag :: payload := by
    simp [frameBody, ← length]
  have rest : (asItems (len :: kind :: tag :: (payload ++ [high, low])) ++ after).drop (len.toNat + 5) = after := by
    rw [List.drop_left' (by simp [asItems, length])]
  simp only [gatherFrame, bytes, fits, if_false, long, rest]
  simp [length, body]

/-! ## Frames -/

theorem crcBit_lt {r : Nat} (small : r < 65536) : crcBit r < 65536 := by
  unfold crcBit
  split
  · exact Nat.xor_lt_two_pow (n := 16) (Nat.mod_lt _ (by decide)) (by decide)
  · omega

theorem crcByte_lt {r : Nat} (b : Byte) (small : r < 65536) : crcByte r b < 65536 := by
  have top : b.toNat * 256 < 65536 := by
    have := b.isLt
    omega
  unfold crcByte
  iterate 8 refine crcBit_lt ?_
  exact Nat.xor_lt_two_pow (n := 16) small top

theorem crc16_lt (bs : List Byte) : crc16 bs < 65536 := by
  have all (bs : List Byte) (r : Nat) (small : r < 65536) : bs.foldl crcByte r < 65536 := by
    induction bs generalizing r with
    | nil => exact small
    | cons b bs ih => exact ih _ (crcByte_lt b small)
  exact all bs _ (by decide)

theorem length_toNat {f : Frame} (fits : f.payload.length ≤ 248) :
    (BitVec.ofNat 8 f.payload.length).toNat = f.payload.length := by
  rw [BitVec.toNat_ofNat]
  exact Nat.mod_eq_of_lt (by omega)

/-- A frame of R176 behind its SYNC is good. -/
theorem gatherFrame_wire {f : Frame} (fits : f.payload.length ≤ 248) (after : List RxItem) :
    gatherFrame (asItems (frameBody f ++ bytesOf 2 (crc16 (frameBody f))) ++ after) = .good f after := by
  obtain ⟨high, low, crc⟩ : ∃ high low, bytesOf 2 (crc16 (frameBody f)) = [high, low] := ⟨_, _, rfl⟩
  have value : high.toNat * 256 + low.toNat = crc16 (frameBody f) := by
    rw [← valueOf_pair, ← crc, valueOf_bytesOf (crc16_lt _)]
  have len := length_toNat fits
  have whole := gatherFrame_of_whole (kind := f.kind) (tag := f.tag) (high := high) (low := low) (after := after)
    (by rw [len]; omega) len
  rw [crc]
  exact whole.trans (if_pos value)

theorem receiveAll_good {noise : List Byte} {f : Frame} (noSync : syncByte ∉ noise) (fits : f.payload.length ≤ 248)
    (after : List RxItem) (n : Nat) :
    receiveAll (n + 1) (asItems noise ++ (asItems (wireBytes f) ++ after)) =
      (f :: (receiveAll n after).1, (receiveAll n after).2) := by
  have found : hunt (asItems noise ++ (asItems (wireBytes f) ++ after)) =
      .byte syncByte :: (asItems (frameBody f ++ bytesOf 2 (crc16 (frameBody f))) ++ after) :=
    (hunt_noise noSync _).trans (hunt_sync _)
  simp only [receiveAll, examine, found, gatherFrame_wire fits]

/-- Frames one behind another, each after bytes that are no SYNC. -/
theorem receiveAll_frames {frames : List (List Byte × Frame)} {tail : List Byte}
    (sound : ∀ p ∈ frames, syncByte ∉ p.1 ∧ p.2.payload.length ≤ 248) (noSync : syncByte ∉ tail) {n : Nat}
    (rounds : frames.length ≤ n) :
    receiveAll n (asItems ((frames.flatMap fun p => p.1 ++ wireBytes p.2) ++ tail)) = (frames.map (·.2), []) := by
  induction frames generalizing n with
  | nil => exact receiveAll_of_hunt_nil (hunt_noise_nil noSync) n
  | cons p frames ih =>
    obtain ⟨noise, fits⟩ := sound p List.mem_cons_self
    obtain ⟨m, rfl⟩ : ∃ m, n = m + 1 := ⟨n - 1, by simp at rounds; omega⟩
    have others := ih (fun q hq => sound q (List.mem_cons_of_mem _ hq)) (n := m) (by simpa using rounds)
    have split' : asItems (((p :: frames).flatMap fun p => p.1 ++ wireBytes p.2) ++ tail) =
        asItems p.1 ++ (asItems (wireBytes p.2) ++
          asItems ((frames.flatMap fun p => p.1 ++ wireBytes p.2) ++ tail)) := by
      simp [asItems]
    rw [split', receiveAll_good noise fits, others]
    rfl

theorem length_le_frames (frames : List (List Byte × Frame)) :
    frames.length ≤ (frames.flatMap fun p => p.1 ++ wireBytes p.2).length := by
  induction frames with
  | nil => exact le_rfl
  | cons p frames ih =>
    have some' : 0 < (wireBytes p.2).length := Nat.succ_pos _
    simp only [List.flatMap_cons, List.length_append, List.length_cons]
    omega

/-- A first part of a frame spells nothing yet. -/
theorem gatherFrame_part {f : Frame} (fits : f.payload.length ≤ 248) {part rest : List Byte}
    (wire : frameBody f ++ bytesOf 2 (crc16 (frameBody f)) = part ++ rest) (more : rest ≠ []) :
    gatherFrame (asItems part) = .incomplete := by
  have waits : 0 < rest.length := List.length_pos_iff.mpr more
  have length := congrArg List.length wire
  cases part with
  | nil => rfl
  | cons len part =>
    have first : BitVec.ofNat 8 f.payload.length = len := (List.cons.inj wire).1
    have number : len.toNat = f.payload.length := first ▸ length_toNat fits
    simp [frameBody] at length
    exact gatherFrame_of_part (by omega) (by omega)

theorem receiveAll_part {f : Frame} (fits : f.payload.length ≤ 248) {noise part rest : List Byte}
    (noSync : syncByte ∉ noise) (wire : wireBytes f = part ++ rest) (more : rest ≠ []) (n : Nat) :
    receiveAll (n + 1) (asItems (noise ++ part)) = ([], asItems part) := by
  cases part with
  | nil =>
    rw [List.append_nil]
    exact receiveAll_of_hunt_nil (hunt_noise_nil noSync) _
  | cons b part =>
    obtain ⟨first, behind⟩ := List.cons.inj wire
    subst first
    have found : hunt (asItems (noise ++ syncByte :: part)) = asItems (syncByte :: part) := by
      simpa [asItems] using (hunt_noise noSync (asItems (syncByte :: part))).trans (hunt_sync _)
    have spells : examine (asItems (noise ++ syncByte :: part)) = .incomplete := by
      rw [examine, found]
      exact gatherFrame_part fits behind more
    simp only [receiveAll, spells, found]

/-! ## Deliveries -/

theorem ticking_of_sensing {s : State} (sensing : s.sensing = true) : s.ticking = true := by
  simp only [State.sensing, State.ticking, Bool.or_eq_true] at *
  exact .inl sensing

/-- What a delivery of items does while bytes are received. -/
def deliver (items : List RxItem) (s : State) : State :=
  (receiveAll (items.length + 1) items).1.foldl (fun t f => enterFrame f t)
    { s with link.rx := (receiveAll (items.length + 1) items).2 }

theorem receive_of_sensing {s : State} (sensing : s.sensing = true) (items : List RxItem) :
    receive items s = deliver (s.link.rx ++ items) s := if_pos sensing

theorem exec_received {s : State} (sensing : s.sensing = true) (bytes : List Byte) :
    exec (.frameReceived bytes) s = .next (arbitrate (deliver (s.link.rx ++ asItems bytes) s)) := by
  rw [← receive_of_sensing sensing]
  exact if_pos (ticking_of_sensing sensing)

theorem exec_timeout {s : State} (sensing : s.sensing = true) (bytes : List Byte) :
    exec (.interByteTimeout bytes) s = .next (arbitrate (deliver (s.link.rx ++ (asItems bytes ++ [.gap])) s)) := by
  rw [← receive_of_sensing sensing]
  exact if_pos (ticking_of_sensing sensing)

theorem exec_discarded {s : State} (sensing : s.sensing = true) (bytes : List Byte) (low : Bool) :
    exec (.frameDiscarded bytes low) s = .next (arbitrate (deliver (s.link.rx ++ withStop bytes low) s)) := by
  rw [← receive_of_sensing sensing]
  exact if_pos (ticking_of_sensing sensing)

/-- Settles O11: the frames found one by one, and the part of a frame that waits. -/
theorem frameIsReceived : Obligations.FrameIsReceived := by
  have whole : ∀ (s : State) (bytes : List Byte) (frames : List (List Byte × Frame)) (tail : List Byte),
      s.sensing = true → (∀ p ∈ frames, syncByte ∉ p.1 ∧ p.2.payload.length ≤ 248) → syncByte ∉ tail →
      s.link.rx ++ bytes.map .byte = ((frames.flatMap fun p => p.1 ++ wireBytes p.2) ++ tail).map RxItem.byte →
      exec (.frameReceived bytes) s =
        .next (arbitrate (frames.foldl (fun t p => enterFrame p.2 t) { s with link.rx := [] })) := by
    intro s bytes frames tail sensing sound noSync gathered
    have all : s.link.rx ++ asItems bytes = asItems ((frames.flatMap fun p => p.1 ++ wireBytes p.2) ++ tail) := gathered
    have rounds : frames.length ≤ (s.link.rx ++ asItems bytes).length + 1 := by
      have enough := length_le_frames frames
      rw [all]
      simp only [asItems, List.length_map, List.length_append]
      omega
    have found := receiveAll_frames sound noSync rounds
    rw [← all] at found
    rw [exec_received sensing, deliver, found, List.foldl_map]
  refine ⟨whole, fun s noise part rest f sensing empty noSync fits wire more => ⟨?_, fun t sensing' gathered => ?_⟩⟩
  · rw [exec_received sensing, empty, List.nil_append, deliver, receiveAll_part fits noSync wire more]
    rfl
  · have all : t.link.rx ++ rest.map .byte = (([([], f)].flatMap fun p : List Byte × Frame => p.1 ++ wireBytes p.2) ++ []).map RxItem.byte := by
      simp [gathered, wire]
    exact whole t rest [([], f)] [] sensing' (by simpa using fits) (by simp) all

/-! ## Frames discarded (R177) -/

theorem withStop_high (bs : List Byte) : withStop bs false = asItems bs := by
  induction bs with
  | nil => rfl
  | cons b bs ih =>
    cases bs with
    | nil => rfl
    | cons c bs => exact congrArg (RxItem.byte b :: ·) ih

theorem withStop_low (bs : List Byte) (last : Byte) : withStop (bs ++ [last]) true = asItems bs ++ [.badStop last] := by
  induction bs with
  | nil => rfl
  | cons b bs ih =>
    cases bs with
    | nil => rfl
    | cons c bs => exact congrArg (RxItem.byte b :: ·) ih

/-- A discarded frame is as if its SYNC had not arrived. -/
theorem deliver_discarded {items : List RxItem} (spells : gatherFrame items = .discard items) (s : State) :
    deliver (.byte syncByte :: items) s = deliver items s := by
  simp only [deliver, List.length_cons, receiveAll_discard spells]

theorem deliver_nothing {items : List RxItem} {s : State} (nothing : hunt items = []) (empty : s.link.rx = []) :
    deliver items s = s := by
  have same : { s with link.rx := [] } = s := by rw [← empty]
  simp only [deliver, receiveAll_of_hunt_nil nothing, List.foldl_nil, same]

theorem hunt_gap {bytes : List Byte} (noSync : syncByte ∉ bytes) : hunt (asItems bytes ++ [.gap]) = [] :=
  hunt_noise noSync _

theorem hunt_low {bytes : List Byte} (noSync : syncByte ∉ bytes) (low : Bool) : hunt (withStop bytes low) = [] := by
  cases low with
  | false => rw [withStop_high, hunt_noise_nil noSync]
  | true =>
    rcases List.eq_nil_or_concat bytes with rfl | ⟨first, last, rfl⟩
    · rfl
    · rw [List.concat_eq_append, withStop_low]
      exact hunt_noise (by simp_all) _

section

variable {len : Byte} {more : List Byte}

theorem discards_gap (bad : 248 < len.toNat ∨ more.length < len.toNat + 4) :
    gatherFrame (asItems (len :: more) ++ [.gap]) = .discard (asItems (len :: more) ++ [.gap]) := by
  have bytes : goodBytes (asItems (len :: more) ++ [.gap]) = len :: more := by simp [goodBytes_append, goodBytes]
  rcases bad with long | short
  · exact gatherFrame_of_long bytes long
  · exact gatherFrame_of_cut bytes short (by simp [asItems])

theorem discards_long (long : 248 < len.toNat) :
    gatherFrame (asItems (len :: more)) = .discard (asItems (len :: more)) :=
  gatherFrame_of_long (goodBytes_asItems _) long

theorem discards_low (bad : 248 < len.toNat ∨ more.length ≤ len.toNat + 4) :
    gatherFrame (withStop (len :: more) true) = .discard (withStop (len :: more) true) := by
  rcases List.eq_nil_or_concat more with rfl | ⟨first, last, rfl⟩
  · exact gatherFrame_of_cut_at_once rfl (List.cons_ne_nil _ _)
  · rw [List.concat_eq_append] at bad ⊢
    rw [← List.cons_append, withStop_low]
    have bytes : goodBytes (asItems (len :: first) ++ [.badStop last]) = len :: first := by
      simp [goodBytes_append, goodBytes]
    rcases bad with long | short
    · exact gatherFrame_of_long bytes long
    · rw [List.length_append, List.length_singleton] at short
      exact gatherFrame_of_cut bytes (by omega) (by simp [asItems])

theorem discards_crc {kind tag high low : Byte} {payload after : List Byte}
    (is : more = kind :: tag :: (payload ++ high :: low :: after)) (length : len.toNat = payload.length)
    (wrong : high.toNat * 256 + low.toNat ≠ crc16 (len :: kind :: tag :: payload)) :
    gatherFrame (asItems (len :: more)) = .discard (asItems (len :: more)) := by
  by_cases long : 248 < len.toNat
  · exact discards_long long
  · have split' : asItems (len :: more) =
        asItems (len :: kind :: tag :: (payload ++ [high, low])) ++ asItems after := by
      simp [asItems, is]
    rw [split']
    exact (gatherFrame_of_whole long length).trans (if_neg wrong)

end

section

variable {s : State} {len : Byte} {more : List Byte}

theorem exec_timeout_discarded (sensing : s.sensing = true) (empty : s.link.rx = [])
    (bad : 248 < len.toNat ∨ more.length < len.toNat + 4) :
    exec (.interByteTimeout (syncByte :: len :: more)) s = exec (.interByteTimeout (len :: more)) s := by
  rw [exec_timeout sensing, exec_timeout sensing, empty]
  exact congrArg (fun t => Host.Outcome.next (arbitrate t)) (deliver_discarded (discards_gap bad) s)

theorem exec_received_discarded (sensing : s.sensing = true) (empty : s.link.rx = [])
    (spells : gatherFrame (asItems (len :: more)) = .discard (asItems (len :: more))) :
    exec (.frameReceived (syncByte :: len :: more)) s = exec (.frameReceived (len :: more)) s := by
  rw [exec_received sensing, exec_received sensing, empty]
  exact congrArg (fun t => Host.Outcome.next (arbitrate t)) (deliver_discarded spells s)

theorem exec_discarded_discarded (sensing : s.sensing = true) (empty : s.link.rx = []) {low : Bool}
    (spells : gatherFrame (withStop (len :: more) low) = .discard (withStop (len :: more) low)) :
    exec (.frameDiscarded (syncByte :: len :: more) low) s = exec (.frameDiscarded (len :: more) low) s := by
  rw [exec_discarded sensing, exec_discarded sensing, empty]
  exact congrArg (fun t => Host.Outcome.next (arbitrate t)) (deliver_discarded spells s)

theorem exec_timeout_nothing {bytes : List Byte} (sensing : s.sensing = true) (empty : s.link.rx = [])
    (noSync : syncByte ∉ bytes) : exec (.interByteTimeout bytes) s = .next (arbitrate s) := by
  rw [exec_timeout sensing, empty, List.nil_append, deliver_nothing (hunt_gap noSync) empty]

theorem exec_discarded_nothing {bytes : List Byte} (sensing : s.sensing = true) (empty : s.link.rx = [])
    (noSync : syncByte ∉ bytes) (low : Bool) : exec (.frameDiscarded bytes low) s = .next (arbitrate s) := by
  rw [exec_discarded sensing, empty, List.nil_append, deliver_nothing (hunt_low noSync low) empty]

/-- A SYNC and then a gap. -/
theorem exec_timeout_sync (sensing : s.sensing = true) (empty : s.link.rx = []) :
    exec (.interByteTimeout [syncByte]) s = .next (arbitrate s) := by
  have cut : gatherFrame [.gap] = .discard [.gap] := rfl
  rw [exec_timeout sensing, empty]
  exact congrArg (fun t => Host.Outcome.next (arbitrate t))
    ((deliver_discarded cut s).trans (deliver_nothing rfl empty))

end

/-! ## Outside RUN, DOZE and the settle step -/

theorem any_byte (bytes : List Byte) : (asItems bytes).any (· ≠ .gap) = !bytes.isEmpty := by
  cases bytes with
  | nil => rfl
  | cons b bytes => simp [asItems]

theorem any_withStop (bytes : List Byte) (low : Bool) : (withStop bytes low).any (· ≠ .gap) = !bytes.isEmpty := by
  cases low with
  | false => rw [withStop_high, any_byte]
  | true =>
    cases bytes with
    | nil => rfl
    | cons b bytes =>
      cases bytes with
      | nil => rfl
      | cons c bytes => simp [withStop]

/-- In SLEEP the bytes are a wake source and no more (R159). -/
theorem receive_asleep {s : State} (asleep : s.clock.power = .sleep) {items : List RxItem} {edge : Bool}
    (edges : items.any (· ≠ .gap) = edge) :
    whenDue s.ticking (receive items) s = .next { s with clock.waking := s.clock.waking || edge } := by
  have deaf : s.sensing = false := by simp [State.sensing, State.awake, asleep]
  have ticking : s.ticking = true := by simp [State.ticking, asleep]
  have still : ∀ w, State.awake { s with clock.waking := w } = false := fun _ => not_awake_of_sleep asleep
  rw [whenDue, if_pos ticking, receive, deaf, if_neg Bool.false_ne_true, receiveAsleep, edges, settled,
    arbitrate_of_not_awake (still _)]

/-- Settles O12: the discards one by one, what is examined again, and the bytes that are not received. -/
theorem bytesThatAreNoFrameAreDropped : Obligations.BytesThatAreNoFrameAreDropped := by
  refine ⟨fun s len more sensing empty noSync => ⟨fun short => ?_, exec_timeout_sync sensing empty, fun long => ?_,
    fun short _ => ?_, fun kind tag high low payload is length _ wrong => ?_⟩,
    fun s len more sensing empty => ⟨exec_timeout_discarded sensing empty, fun long =>
      ⟨exec_received_discarded sensing empty (discards_long long), exec_discarded_discarded sensing empty ?_⟩,
      fun bad => exec_discarded_discarded sensing empty (discards_low bad),
      fun kind tag high low payload after is length wrong => ?_, fun noise tail f is noSync noSync' fits long => ?_⟩,
    fun s bytes stopLow => ⟨fun stopped => ?_, fun asleep => ?_⟩⟩
  · rw [exec_timeout_discarded sensing empty (.inr short), exec_timeout_nothing sensing empty noSync]
  · rw [exec_discarded_discarded sensing empty (by rw [withStop_high]; exact discards_long long),
      exec_discarded_nothing sensing empty noSync]
  · rw [exec_discarded_discarded sensing empty (discards_low (.inr short)),
      exec_discarded_nothing sensing empty noSync]
  · rw [exec_discarded_discarded sensing empty (by rw [withStop_high]; exact discards_crc is length wrong),
      exec_discarded_nothing sensing empty noSync]
  · rw [withStop_high]
    exact discards_long long
  · have spells := discards_crc is length wrong
    exact ⟨exec_received_discarded sensing empty spells,
      exec_discarded_discarded sensing empty (by rw [withStop_high]; exact spells)⟩
  · have same : { s with link.rx := [] } = s := by rw [← empty]
    have found := frameIsReceived.1 s (len :: more) [(len :: noise, f)] tail sensing (by simpa using ⟨by simpa using noSync, fits⟩)
      noSync' (by simp [empty, is])
    rw [same] at found
    rw [exec_received_discarded sensing empty (discards_long long), found]
    rfl
  · have off : s.ticking = false := by
      rcases stopped with p | p | p <;> simp [State.ticking, State.awake, p]
    have nothing (work : State → State) : whenDue s.ticking work s = .next s := by
      rw [whenDue, off, if_neg Bool.false_ne_true]
    exact ⟨nothing _, nothing _, nothing _⟩
  · exact ⟨receive_asleep asleep (any_byte bytes), receive_asleep asleep (by
      rw [List.any_append]
      exact (congrArg (· || false) (any_byte bytes)).trans (Bool.or_false _)),
      receive_asleep asleep (any_withStop bytes stopLow)⟩

end Sys2Proof.Machine
end
